-- ==== Sys2Proof/Word.lean ====
section
/-! DEFINITION. The bit-vector types of the block: a byte, a bus word, a word of SHA-512, and
byte sequences (00_scope.md R9, R10, R11). Bit 0 is the least significant bit. -/

namespace Sys2Proof

/-- An 8-bit unsigned value (R9). -/
abbrev Byte := BitVec 8

/-- A 32-bit word of the host bus (R10, R91). -/
abbrev Word := BitVec 32

/-- A 64-bit word of the hash core (R250). -/
abbrev Word64 := BitVec 64

/-- A byte sequence, first byte first (R9); `s[a:b]` is `(s.drop a).take (b - a)` and `||` is `++`. -/
abbrev Bytes := List Byte

/-- One bit as a one-bit vector. -/
abbrev bit (b : Bool) : BitVec 1 := BitVec.ofBool b

end Sys2Proof
end

