-- ==== Sys2Proof/Syntax.lean ====
section
/-! DEFINITION. The command set: one constructor per row of spec/opcode_table.json (30_encoding.md
R131). A command word carries no immediate, register number or length (R134), so no constructor has
an argument. -/

namespace Sys2Proof

/-- The four commands of R131, in the order of their opcodes. -/
inductive Instr where
  /-- `KEY_LOAD` (40_commands.md R160), the source's `NewCipher(key)`. -/
  | keyLoad
  /-- `KEY_CLEAR` (R165), the spec's own. -/
  | keyClear
  /-- `SEAL` (R170), the source's `Seal(plaintext)`. -/
  | sealData
  /-- `OPEN` (R180), the source's `Open(sealed)`. -/
  | openRecord
deriving DecidableEq, Repr

/-- The value of the command word's `OP` field (R131). -/
def Instr.op : Instr → BitVec 4
  | .keyLoad => 0x1
  | .keyClear => 0x2
  | .sealData => 0x3
  | .openRecord => 0x4

end Sys2Proof
end

