-- ==== Sys2Proof/WellFormed.lean ====
section
/-! DEFINITION. The fields of a command word and what makes one legal (30_encoding.md R130 to R133).
The constructors of `Instr` carry no operand, so the checks stand on the word's two fields. -/

namespace Sys2Proof

/-- A command word by its two fields (R130; 10_state.md R35). -/
structure CmdWord where
  /-- Bits 31:4, reserved. -/
  rsv : BitVec 28
  /-- Bits 3:0, the opcode. -/
  op : BitVec 4
deriving DecidableEq, Repr

/-- The opcodes 0x1 to 0x4 are assigned; 0x0 and 0x5 to 0xF are reserved (R131, R133). -/
def opAssigned (op : BitVec 4) : Bool := decide (0x1 ≤ op ∧ op ≤ 0x4)

/-- `RSV` must be zero (R130, R133). -/
def rsvZero (rsv : BitVec 28) : Bool := rsv == 0

/-- A legal command word: an assigned opcode and a zero `RSV` (R132). -/
def CmdWord.wf (c : CmdWord) : Bool := opAssigned c.op && rsvZero c.rsv

/-- The fields of the word that selects a command: its opcode, with `RSV` zero (R132). -/
def Instr.cmdWord (i : Instr) : CmdWord := ⟨0, i.op⟩

/-- A command is well formed when the fields that select it are legal. -/
def Instr.wf (i : Instr) : Bool := i.cmdWord.wf

end Sys2Proof
end

