-- ==== Sys2Proof/Decode.lean ====
section
/-! DEFINITION. Decoding a command word (30_encoding.md R130 to R133), total and rejecting by name,
and the encoder. A rejected word is not refused by the machine: it is the illegal command of
40_commands.md R190. -/

namespace Sys2Proof

/-- Why a word is no command of R132. -/
inductive DecodeError where
  /-- `RSV` is not zero (R133). -/
  | reservedNotZero
  /-- `OP` is 0x0 or 0x5 to 0xF (R133). -/
  | opReserved
  /-- Fewer than the four bytes of a command word (R130: one length, 4 bytes). -/
  | truncated
deriving DecidableEq, Repr

/-- The two fields of a word (R130). -/
def cmdFields (w : Word) : CmdWord := ⟨w.extractLsb' 4 28, w.extractLsb' 0 4⟩

/-- The word that has these two fields (R130). -/
def cmdWordOf (c : CmdWord) : Word := c.rsv ++ c.op

/-- The command an opcode selects when `RSV` is zero (R131). -/
def decodeOp (op : BitVec 4) : Except DecodeError Instr :=
  if op = 0x1 then .ok .keyLoad
  else if op = 0x2 then .ok .keyClear
  else if op = 0x3 then .ok .sealData
  else if op = 0x4 then .ok .openRecord
  else .error .opReserved

/-- The decoder: every word is one of the four commands or illegal (R132, R133). -/
def decode (w : Word) : Except DecodeError Instr :=
  let c := cmdFields w
  if rsvZero c.rsv then decodeOp c.op else .error .reservedNotZero

/-- A word from its four bytes in the bus's byte order, little-endian (20_memory.md R91). -/
def wordOfBytesLE (b0 b1 b2 b3 : Byte) : Word := b3 ++ b2 ++ b1 ++ b0

/-- The four bytes of a word in the bus's byte order (R91). -/
def bytesOfWordLE (w : Word) : Bytes :=
  [w.extractLsb' 0 8, w.extractLsb' 8 8, w.extractLsb' 16 8, w.extractLsb' 24 8]

/-- The decoder on bytes, as they lie on the bus: the command and the bytes after it (R91, R130). -/
def decodeBytes : Bytes → Except DecodeError (Instr × Bytes)
  | b0 :: b1 :: b2 :: b3 :: rest =>
    match decode (wordOfBytesLE b0 b1 b2 b3) with
    | .ok i => .ok (i, rest)
    | .error e => .error e
  | _ => .error .truncated

/-- The word of a command (R132). -/
def encode (i : Instr) : Word := cmdWordOf i.cmdWord

/-- The bytes of a command in the bus's byte order (R91, R132). -/
def encodeBytes (i : Instr) : Bytes := bytesOfWordLE (encode i)

/-- What the decoder reads from an instruction of the opcode table whose `nbits` bits are `w`: the
table's row is one 32-bit word, laid out little-endian as the bus carries it. -/
def decodeTableWord (nbits w : Nat) : Option Instr :=
  match decodeBytes (bytesOfWordLE (BitVec.ofNat 32 (w % 2 ^ nbits))) with
  | .ok (i, _) => some i
  | .error _ => none

end Sys2Proof
end

