-- ==== Sys2Proof/Config.lean ====
section
/-! DEFINITION. What an implementation fixes (00_scope.md R7) and the free values. The parameters that
a run depends on are plain data, so that a run can be evaluated; a statement quantifies over them.
What the spec leaves unspecified is an opaque constant: nothing can be proved of its value. -/

namespace Sys2Proof

/-- The result codes of `STATUS.ERR` (60_exceptions.md R401). Codes 9 to 15 are never written. -/
inductive Err where
  | ok
  | invalidKeyLength
  | randomSourceExhausted
  | ciphertextTooShort
  | authenticationFailed
  | invalidPadding
  | keyNotLoaded
  | illegalCommand
  | lengthOutOfRange
deriving DecidableEq, Repr

/-- The parameters of R7. Each latency table is a function with finitely many values written out:
a key that is not listed has latency 1, and `Timing.lean` never lets a latency be less than 1. -/
structure Config where
  /-- `BUF_BYTES`, the size in bytes of IBUF and of OBUF. -/
  bufBytes : Nat
  /-- `LAT_FIXED(op)`, by the word's `OP` and the result, which says which check failed (R471 (d)). -/
  latFixed : List ((BitVec 4 × Err) × Nat)
  /-- `LAT_SEAL(L)`, by `L = IN_LEN`. -/
  latSeal : List (Nat × Nat)
  /-- `LAT_OPEN(L)`, by `L = IN_LEN`. -/
  latOpen : List (Nat × Nat)
deriving DecidableEq, Repr

/-- `BUF_BYTES` at a legal value: a multiple of 16 with `64 <= BUF_BYTES <= 16384` (R7). -/
def Config.legal (c : Config) : Bool :=
  decide (64 ≤ c.bufBytes) && decide (c.bufBytes ≤ 16384) && c.bufBytes % 16 == 0

/-- The default of R7, `BUF_BYTES = 4096`. The latencies have no default (OPEN in R7); their tables
are empty here, so every latency is the least legal one, 1 (DESIGN CHOICE, log entry 5). -/
def Config.initial : Config := ⟨4096, [], [], []⟩

/-- `IBUF_RESET`: what byte `j` of IBUF holds after the `n`-th reset when nothing has written it
since (R7, 70_reset_and_hazards.md R450, R451: unspecified, any bytes). A FREE VALUE. -/
opaque Config.ibufReset : Nat → Nat → Byte

end Sys2Proof
end

