-- ==== Sys2Proof/Machine/Aes.lean ====
section
/-! DEFINITION. The AES-256 block cipher of 41_aes256.md (R200 to R214): GF(2^8) arithmetic, the
S-boxes, the round transformations, key expansion, the cipher and the inverse cipher. Internal: no
command word names it, SEAL and OPEN reach it through CBC (R214). The passages it follows are marked
"from general knowledge, not in source" by the spec itself; the spec fixes every value. -/

namespace Sys2Proof.Machine

/-- A column of the AES state, and a word of the key schedule: four bytes, row 0 first (R200). -/
structure Col where
  r0 : Byte
  r1 : Byte
  r2 : Byte
  r3 : Byte
deriving DecidableEq, Repr

/-- The AES state, column by column: `s[r][c]` is field `r` of field `c`, and block byte `r + 4c`
(R200). It is also the 16-byte block of the CBC unit and a round key. -/
structure Block where
  c0 : Col
  c1 : Col
  c2 : Col
  c3 : Col
deriving DecidableEq, Repr

/-- The four bytes of a word from byte offset `4 * i` of a sequence; past its end bytes are 0, which
no command reaches: keys have 32 bytes and blocks 16 (R200). -/
def colAt (s : Bytes) (i : Nat) : Col :=
  ⟨s.getD (4 * i) 0, s.getD (4 * i + 1) 0, s.getD (4 * i + 2) 0, s.getD (4 * i + 3) 0⟩

/-- `load(in)`: block byte `r + 4c` becomes `s[r][c]` (R200). -/
def Block.load (s : Bytes) : Block := ⟨colAt s 0, colAt s 1, colAt s 2, colAt s 3⟩

/-- The bytes of a column, row 0 first (R200). -/
def Col.bytes (x : Col) : Bytes := [x.r0, x.r1, x.r2, x.r3]

/-- `unload(s)`: the inverse of `load` on 16 bytes (R200). -/
def Block.unload (b : Block) : Bytes := b.c0.bytes ++ b.c1.bytes ++ b.c2.bytes ++ b.c3.bytes

/-- Bytewise exclusive or of two columns (R11). -/
def Col.xor (x y : Col) : Col := ⟨x.r0 ^^^ y.r0, x.r1 ^^^ y.r1, x.r2 ^^^ y.r2, x.r3 ^^^ y.r3⟩

/-- The block XOR `X(a, b)` (R300); with a round key it is `AddRoundKey` (R211). -/
def Block.xor (x y : Block) : Block := ⟨x.c0.xor y.c0, x.c1.xor y.c1, x.c2.xor y.c2, x.c3.xor y.c3⟩

/-- The same byte function on every row of a column. -/
def Col.map (f : Byte → Byte) (x : Col) : Col := ⟨f x.r0, f x.r1, f x.r2, f x.r3⟩

/-- The same column function on every column of the state. -/
def Block.mapCols (f : Col → Col) (b : Block) : Block := ⟨f b.c0, f b.c1, f b.c2, f b.c3⟩

/-- `xtime(b) = b • 0x02` (R202). -/
def xtime (b : Byte) : Byte := (b <<< 1) ^^^ (if b.msb then 0x1b else 0x00)

/-- `a • b` in GF(2^8) modulo `x^8 + x^4 + x^3 + x + 1`, as the sum of `xtime` powers of `a` that
`b`'s bits select (R201, R202). -/
def gfMul (a b : Byte) : Byte :=
  let term (x : Byte) (i : Nat) : Byte := if b.getLsbD i then x else 0
  let x1 := xtime a
  let x2 := xtime x1
  let x3 := xtime x2
  let x4 := xtime x3
  let x5 := xtime x4
  let x6 := xtime x5
  let x7 := xtime x6
  term a 0 ^^^ term x1 1 ^^^ term x2 2 ^^^ term x3 3 ^^^ term x4 4 ^^^ term x5 5 ^^^ term x6 6 ^^^ term x7 7

/-- `b • 0x03` (R202). -/
def mul03 (b : Byte) : Byte := xtime b ^^^ b

/-- `b • 0x09` (R202). -/
def mul09 (b : Byte) : Byte := xtime (xtime (xtime b)) ^^^ b

/-- `b • 0x0b` (R202). -/
def mul0b (b : Byte) : Byte := xtime (xtime (xtime b)) ^^^ xtime b ^^^ b

/-- `b • 0x0d` (R202). -/
def mul0d (b : Byte) : Byte := xtime (xtime (xtime b)) ^^^ xtime (xtime b) ^^^ b

/-- `b • 0x0e` (R202). -/
def mul0e (b : Byte) : Byte := xtime (xtime (xtime b)) ^^^ xtime (xtime b) ^^^ xtime b

/-- The affine map of the S-box formula, applied to `t = a^-1` (R204). -/
def sboxAffine (t : Byte) : Byte :=
  t ^^^ t.rotateLeft 1 ^^^ t.rotateLeft 2 ^^^ t.rotateLeft 3 ^^^ t.rotateLeft 4 ^^^ 0x63

/-- The table of R204: row is the high nibble, column the low nibble. -/
def sboxTable : List (List Byte) :=
  [
   [0x63, 0x7c, 0x77, 0x7b, 0xf2, 0x6b, 0x6f, 0xc5, 0x30, 0x01, 0x67, 0x2b, 0xfe, 0xd7, 0xab, 0x76],
   [0xca, 0x82, 0xc9, 0x7d, 0xfa, 0x59, 0x47, 0xf0, 0xad, 0xd4, 0xa2, 0xaf, 0x9c, 0xa4, 0x72, 0xc0],
   [0xb7, 0xfd, 0x93, 0x26, 0x36, 0x3f, 0xf7, 0xcc, 0x34, 0xa5, 0xe5, 0xf1, 0x71, 0xd8, 0x31, 0x15],
   [0x04, 0xc7, 0x23, 0xc3, 0x18, 0x96, 0x05, 0x9a, 0x07, 0x12, 0x80, 0xe2, 0xeb, 0x27, 0xb2, 0x75],
   [0x09, 0x83, 0x2c, 0x1a, 0x1b, 0x6e, 0x5a, 0xa0, 0x52, 0x3b, 0xd6, 0xb3, 0x29, 0xe3, 0x2f, 0x84],
   [0x53, 0xd1, 0x00, 0xed, 0x20, 0xfc, 0xb1, 0x5b, 0x6a, 0xcb, 0xbe, 0x39, 0x4a, 0x4c, 0x58, 0xcf],
   [0xd0, 0xef, 0xaa, 0xfb, 0x43, 0x4d, 0x33, 0x85, 0x45, 0xf9, 0x02, 0x7f, 0x50, 0x3c, 0x9f, 0xa8],
   [0x51, 0xa3, 0x40, 0x8f, 0x92, 0x9d, 0x38, 0xf5, 0xbc, 0xb6, 0xda, 0x21, 0x10, 0xff, 0xf3, 0xd2],
   [0xcd, 0x0c, 0x13, 0xec, 0x5f, 0x97, 0x44, 0x17, 0xc4, 0xa7, 0x7e, 0x3d, 0x64, 0x5d, 0x19, 0x73],
   [0x60, 0x81, 0x4f, 0xdc, 0x22, 0x2a, 0x90, 0x88, 0x46, 0xee, 0xb8, 0x14, 0xde, 0x5e, 0x0b, 0xdb],
   [0xe0, 0x32, 0x3a, 0x0a, 0x49, 0x06, 0x24, 0x5c, 0xc2, 0xd3, 0xac, 0x62, 0x91, 0x95, 0xe4, 0x79],
   [0xe7, 0xc8, 0x37, 0x6d, 0x8d, 0xd5, 0x4e, 0xa9, 0x6c, 0x56, 0xf4, 0xea, 0x65, 0x7a, 0xae, 0x08],
   [0xba, 0x78, 0x25, 0x2e, 0x1c, 0xa6, 0xb4, 0xc6, 0xe8, 0xdd, 0x74, 0x1f, 0x4b, 0xbd, 0x8b, 0x8a],
   [0x70, 0x3e, 0xb5, 0x66, 0x48, 0x03, 0xf6, 0x0e, 0x61, 0x35, 0x57, 0xb9, 0x86, 0xc1, 0x1d, 0x9e],
   [0xe1, 0xf8, 0x98, 0x11, 0x69, 0xd9, 0x8e, 0x94, 0x9b, 0x1e, 0x87, 0xe9, 0xce, 0x55, 0x28, 0xdf],
   [0x8c, 0xa1, 0x89, 0x0d, 0xbf, 0xe6, 0x42, 0x68, 0x41, 0x99, 0x2d, 0x0f, 0xb0, 0x54, 0xbb, 0x16]]

/-- The table of R205, laid out as R204's. -/
def invSboxTable : List (List Byte) :=
  [
   [0x52, 0x09, 0x6a, 0xd5, 0x30, 0x36, 0xa5, 0x38, 0xbf, 0x40, 0xa3, 0x9e, 0x81, 0xf3, 0xd7, 0xfb],
   [0x7c, 0xe3, 0x39, 0x82, 0x9b, 0x2f, 0xff, 0x87, 0x34, 0x8e, 0x43, 0x44, 0xc4, 0xde, 0xe9, 0xcb],
   [0x54, 0x7b, 0x94, 0x32, 0xa6, 0xc2, 0x23, 0x3d, 0xee, 0x4c, 0x95, 0x0b, 0x42, 0xfa, 0xc3, 0x4e],
   [0x08, 0x2e, 0xa1, 0x66, 0x28, 0xd9, 0x24, 0xb2, 0x76, 0x5b, 0xa2, 0x49, 0x6d, 0x8b, 0xd1, 0x25],
   [0x72, 0xf8, 0xf6, 0x64, 0x86, 0x68, 0x98, 0x16, 0xd4, 0xa4, 0x5c, 0xcc, 0x5d, 0x65, 0xb6, 0x92],
   [0x6c, 0x70, 0x48, 0x50, 0xfd, 0xed, 0xb9, 0xda, 0x5e, 0x15, 0x46, 0x57, 0xa7, 0x8d, 0x9d, 0x84],
   [0x90, 0xd8, 0xab, 0x00, 0x8c, 0xbc, 0xd3, 0x0a, 0xf7, 0xe4, 0x58, 0x05, 0xb8, 0xb3, 0x45, 0x06],
   [0xd0, 0x2c, 0x1e, 0x8f, 0xca, 0x3f, 0x0f, 0x02, 0xc1, 0xaf, 0xbd, 0x03, 0x01, 0x13, 0x8a, 0x6b],
   [0x3a, 0x91, 0x11, 0x41, 0x4f, 0x67, 0xdc, 0xea, 0x97, 0xf2, 0xcf, 0xce, 0xf0, 0xb4, 0xe6, 0x73],
   [0x96, 0xac, 0x74, 0x22, 0xe7, 0xad, 0x35, 0x85, 0xe2, 0xf9, 0x37, 0xe8, 0x1c, 0x75, 0xdf, 0x6e],
   [0x47, 0xf1, 0x1a, 0x71, 0x1d, 0x29, 0xc5, 0x89, 0x6f, 0xb7, 0x62, 0x0e, 0xaa, 0x18, 0xbe, 0x1b],
   [0xfc, 0x56, 0x3e, 0x4b, 0xc6, 0xd2, 0x79, 0x20, 0x9a, 0xdb, 0xc0, 0xfe, 0x78, 0xcd, 0x5a, 0xf4],
   [0x1f, 0xdd, 0xa8, 0x33, 0x88, 0x07, 0xc7, 0x31, 0xb1, 0x12, 0x10, 0x59, 0x27, 0x80, 0xec, 0x5f],
   [0x60, 0x51, 0x7f, 0xa9, 0x19, 0xb5, 0x4a, 0x0d, 0x2d, 0xe5, 0x7a, 0x9f, 0x93, 0xc9, 0x9c, 0xef],
   [0xa0, 0xe0, 0x3b, 0x4d, 0xae, 0x2a, 0xf5, 0xb0, 0xc8, 0xeb, 0xbb, 0x3c, 0x83, 0x53, 0x99, 0x61],
   [0x17, 0x2b, 0x04, 0x7e, 0xba, 0x77, 0xd6, 0x26, 0xe1, 0x69, 0x14, 0x63, 0x55, 0x21, 0x0c, 0x7d]]

/-- A byte table indexed by high nibble (row) and low nibble (column). -/
def lookup16 (t : List (List Byte)) (a : Byte) : Byte := (t.getD (a.toNat / 16) []).getD (a.toNat % 16) 0

/-- `SBOX[a]` (R204). -/
def sbox (a : Byte) : Byte := lookup16 sboxTable a

/-- `INV_SBOX[a]` (R205). -/
def invSbox (a : Byte) : Byte := lookup16 invSboxTable a

/-- `SubBytes` (R206). -/
def subBytes (b : Block) : Block := b.mapCols (Col.map sbox)

/-- `InvSubBytes` (R206). -/
def invSubBytes (b : Block) : Block := b.mapCols (Col.map invSbox)

/-- `ShiftRows`: `s'[r][c] = s[r][(c + r) mod 4]` (R207). -/
def shiftRows (b : Block) : Block :=
  ⟨⟨b.c0.r0, b.c1.r1, b.c2.r2, b.c3.r3⟩, ⟨b.c1.r0, b.c2.r1, b.c3.r2, b.c0.r3⟩,
   ⟨b.c2.r0, b.c3.r1, b.c0.r2, b.c1.r3⟩, ⟨b.c3.r0, b.c0.r1, b.c1.r2, b.c2.r3⟩⟩

/-- `InvShiftRows`: `s'[r][c] = s[r][(c - r) mod 4]` (R207). -/
def invShiftRows (b : Block) : Block :=
  ⟨⟨b.c0.r0, b.c3.r1, b.c2.r2, b.c1.r3⟩, ⟨b.c1.r0, b.c0.r1, b.c3.r2, b.c2.r3⟩,
   ⟨b.c2.r0, b.c1.r1, b.c0.r2, b.c3.r3⟩, ⟨b.c3.r0, b.c2.r1, b.c1.r2, b.c0.r3⟩⟩

/-- One column of `MixColumns` (R209). -/
def mixColumn (a : Col) : Col :=
  ⟨xtime a.r0 ^^^ mul03 a.r1 ^^^ a.r2 ^^^ a.r3,
   a.r0 ^^^ xtime a.r1 ^^^ mul03 a.r2 ^^^ a.r3,
   a.r0 ^^^ a.r1 ^^^ xtime a.r2 ^^^ mul03 a.r3,
   mul03 a.r0 ^^^ a.r1 ^^^ a.r2 ^^^ xtime a.r3⟩

/-- One column of `InvMixColumns` (R210). -/
def invMixColumn (a : Col) : Col :=
  ⟨mul0e a.r0 ^^^ mul0b a.r1 ^^^ mul0d a.r2 ^^^ mul09 a.r3,
   mul09 a.r0 ^^^ mul0e a.r1 ^^^ mul0b a.r2 ^^^ mul0d a.r3,
   mul0d a.r0 ^^^ mul09 a.r1 ^^^ mul0e a.r2 ^^^ mul0b a.r3,
   mul0b a.r0 ^^^ mul0d a.r1 ^^^ mul09 a.r2 ^^^ mul0e a.r3⟩

/-- `MixColumns` (R209). -/
def mixColumns (b : Block) : Block := b.mapCols mixColumn

/-- `InvMixColumns` (R210). -/
def invMixColumns (b : Block) : Block := b.mapCols invMixColumn

/-- `RotWord` (R208). -/
def rotWord (w : Col) : Col := ⟨w.r1, w.r2, w.r3, w.r0⟩

/-- `SubWord` (R208). -/
def subWord (w : Col) : Col := w.map sbox

/-- The first byte of `Rcon[j]`: `x^(j-1)`, by `xtime` from `0x01` (R208); used for `j = 1..7`. -/
def rconByte : Nat → Byte
  | 0 => 0x01
  | 1 => 0x01
  | j + 2 => xtime (rconByte (j + 1))

/-- `Rcon[j]` (R208). -/
def rcon (j : Nat) : Col := ⟨rconByte j, 0, 0, 0⟩

/-- The eight words `w[8j .. 8j+7]` that round `j` of key expansion computes from the eight before
them (R208): `w[i]` takes `SubWord(RotWord(w[i-1])) xor Rcon[i/8]` at `i mod 8 = 0` and
`SubWord(w[i-1])` at `i mod 8 = 4`. -/
def expandEight (j : Nat) (w : List Col) : List Col :=
  let at_ (i : Nat) : Col := w.getD i ⟨0, 0, 0, 0⟩
  let e0 := (at_ 0).xor ((subWord (rotWord (at_ 7))).xor (rcon j))
  let e1 := (at_ 1).xor e0
  let e2 := (at_ 2).xor e1
  let e3 := (at_ 3).xor e2
  let e4 := (at_ 4).xor (subWord e3)
  let e5 := (at_ 5).xor e4
  let e6 := (at_ 6).xor e5
  let e7 := (at_ 7).xor e6
  [e0, e1, e2, e3, e4, e5, e6, e7]

/-- `n` further groups of eight words, the next one being group `j` (R208). -/
def expandGroups : Nat → Nat → List Col → List Col
  | 0, _, _ => []
  | n + 1, j, w => let e := expandEight j w; e ++ expandGroups n (j + 1) e

/-- Key expansion: the 60 words `w[0..59]` of a 32-byte key (R208). -/
def keyExpansion (k : Bytes) : List Col :=
  let w := (List.range 8).map (colAt k)
  (w ++ expandGroups 7 1 w).take 60

/-- Round key `r`: word `w[4r+c]` is column `c` (R208, R211). -/
def roundKey (w : List Col) (r : Nat) : Block :=
  let at_ (i : Nat) : Col := w.getD i ⟨0, 0, 0, 0⟩
  ⟨at_ (4 * r), at_ (4 * r + 1), at_ (4 * r + 2), at_ (4 * r + 3)⟩

/-- `AddRoundKey(s, r)` (R211). -/
def addRoundKey (w : List Col) (r : Nat) (s : Block) : Block := s.xor (roundKey w r)

/-- One of the rounds 1 to 13 of the cipher (R212). -/
def encRound (w : List Col) (s : Block) (r : Nat) : Block :=
  addRoundKey w r (mixColumns (shiftRows (subBytes s)))

/-- One of the rounds 13 down to 1 of the inverse cipher (R213). -/
def decRound (w : List Col) (s : Block) (r : Nat) : Block :=
  invMixColumns (addRoundKey w r (invSubBytes (invShiftRows s)))

/-- The rounds 1 to 13 that have a MixColumns, in the cipher's order (R212). -/
def innerRounds : List Nat := [1, 2, 3, 4, 5, 6, 7, 8, 9, 10, 11, 12, 13]

/-- The cipher on a state, with the expanded key (R212). -/
def cipherBlock (w : List Col) (b : Block) : Block :=
  let s := innerRounds.foldl (encRound w) (addRoundKey w 0 b)
  addRoundKey w 14 (shiftRows (subBytes s))

/-- The inverse cipher on a state, with the expanded key (R213). -/
def invCipherBlock (w : List Col) (b : Block) : Block :=
  let s := innerRounds.reverse.foldl (decRound w) (addRoundKey w 14 b)
  addRoundKey w 0 (invSubBytes (invShiftRows s))

/-- `AES_E(k, in)`: encryption of one 16-byte block under a 32-byte key (R212). -/
def aesE (k b : Bytes) : Bytes := (cipherBlock (keyExpansion k) (Block.load b)).unload

/-- `AES_D(k, in)`: decryption of one 16-byte block, with the same key expansion (R213). -/
def aesD (k b : Bytes) : Bytes := (invCipherBlock (keyExpansion k) (Block.load b)).unload

end Sys2Proof.Machine
end

