-- ==== Sys2Proof/Machine/Sha512.lean ====
section
/-! DEFINITION. The SHA-512 hash core and HMAC-SHA-512 of 42_sha512_hmac.md (R250 to R262), over
64-bit words and big-endian bytes (R101). Internal: reached only through SEAL and OPEN. -/

namespace Sys2Proof.Machine

/-- Eight bytes as a word, most significant byte first (R250). -/
def wordOfBytesBE (s : Bytes) (i : Nat) : Word64 :=
  let at_ (j : Nat) : Byte := s.getD (8 * i + j) 0
  at_ 0 ++ at_ 1 ++ at_ 2 ++ at_ 3 ++ at_ 4 ++ at_ 5 ++ at_ 6 ++ at_ 7

/-- A word as its eight bytes, most significant first (R250). -/
def bytesOfWordBE (w : Word64) : Bytes :=
  [w.extractLsb' 56 8, w.extractLsb' 48 8, w.extractLsb' 40 8, w.extractLsb' 32 8,
   w.extractLsb' 24 8, w.extractLsb' 16 8, w.extractLsb' 8 8, w.extractLsb' 0 8]

/-- `ROTR^n(x) = (x >> n) or (x << (64 - n))` (R250). -/
def rotr (x : Word64) (n : Nat) : Word64 := (x >>> n) ||| (x <<< (64 - n))

/-- `Ch` (R251). -/
def shaCh (x y z : Word64) : Word64 := (x &&& y) ^^^ (~~~x &&& z)

/-- `Maj` (R251). -/
def shaMaj (x y z : Word64) : Word64 := (x &&& y) ^^^ (x &&& z) ^^^ (y &&& z)

/-- `Σ0` (R251). -/
def bigSigma0 (x : Word64) : Word64 := rotr x 28 ^^^ rotr x 34 ^^^ rotr x 39

/-- `Σ1` (R251). -/
def bigSigma1 (x : Word64) : Word64 := rotr x 14 ^^^ rotr x 18 ^^^ rotr x 41

/-- `σ0` (R251). -/
def smallSigma0 (x : Word64) : Word64 := rotr x 1 ^^^ rotr x 8 ^^^ (x >>> 7)

/-- `σ1` (R251). -/
def smallSigma1 (x : Word64) : Word64 := rotr x 19 ^^^ rotr x 61 ^^^ (x >>> 6)

/-- One row `t` of R252's table, `t` from 0 to 19, which has four columns of constants. -/
structure ConstantRow where
  /-- `K[t]`. -/
  k0 : Word64
  /-- `K[t + 20]`. -/
  k20 : Word64
  /-- `K[t + 40]`. -/
  k40 : Word64
  /-- `K[t + 60]`. -/
  k60 : Word64
deriving DecidableEq, Repr

/-- The rows 0 to 9 of R252's table. -/
def constantRowsLow : List ConstantRow :=
  [⟨0x428a2f98d728ae22, 0x2de92c6f592b0275, 0xa2bfe8a14cf10364, 0x90befffa23631e28⟩,
   ⟨0x7137449123ef65cd, 0x4a7484aa6ea6e483, 0xa81a664bbc423001, 0xa4506cebde82bde9⟩,
   ⟨0xb5c0fbcfec4d3b2f, 0x5cb0a9dcbd41fbd4, 0xc24b8b70d0f89791, 0xbef9a3f7b2c67915⟩,
   ⟨0xe9b5dba58189dbbc, 0x76f988da831153b5, 0xc76c51a30654be30, 0xc67178f2e372532b⟩,
   ⟨0x3956c25bf348b538, 0x983e5152ee66dfab, 0xd192e819d6ef5218, 0xca273eceea26619c⟩,
   ⟨0x59f111f1b605d019, 0xa831c66d2db43210, 0xd69906245565a910, 0xd186b8c721c0c207⟩,
   ⟨0x923f82a4af194f9b, 0xb00327c898fb213f, 0xf40e35855771202a, 0xeada7dd6cde0eb1e⟩,
   ⟨0xab1c5ed5da6d8118, 0xbf597fc7beef0ee4, 0x106aa07032bbd1b8, 0xf57d4f7fee6ed178⟩,
   ⟨0xd807aa98a3030242, 0xc6e00bf33da88fc2, 0x19a4c116b8d2d0c8, 0x06f067aa72176fba⟩,
   ⟨0x12835b0145706fbe, 0xd5a79147930aa725, 0x1e376c085141ab53, 0x0a637dc5a2c898a6⟩]

/-- The rows 10 to 19 of R252's table. -/
def constantRowsHigh : List ConstantRow :=
  [⟨0x243185be4ee4b28c, 0x06ca6351e003826f, 0x2748774cdf8eeb99, 0x113f9804bef90dae⟩,
   ⟨0x550c7dc3d5ffb4e2, 0x142929670a0e6e70, 0x34b0bcb5e19b48a8, 0x1b710b35131c471b⟩,
   ⟨0x72be5d74f27b896f, 0x27b70a8546d22ffc, 0x391c0cb3c5c95a63, 0x28db77f523047d84⟩,
   ⟨0x80deb1fe3b1696b1, 0x2e1b21385c26c926, 0x4ed8aa4ae3418acb, 0x32caab7b40c72493⟩,
   ⟨0x9bdc06a725c71235, 0x4d2c6dfc5ac42aed, 0x5b9cca4f7763e373, 0x3c9ebe0a15c9bebc⟩,
   ⟨0xc19bf174cf692694, 0x53380d139d95b3df, 0x682e6ff3d6b2b8a3, 0x431d67c49c100d4c⟩,
   ⟨0xe49b69c19ef14ad2, 0x650a73548baf63de, 0x748f82ee5defb2fc, 0x4cc5d4becb3e42b6⟩,
   ⟨0xefbe4786384f25e3, 0x766a0abb3c77b2a8, 0x78a5636f43172f60, 0x597f299cfc657e2a⟩,
   ⟨0x0fc19dc68b8cd5b5, 0x81c2c92e47edaee6, 0x84c87814a1f0ab72, 0x5fcb6fab3ad6faec⟩,
   ⟨0x240ca1cc77ac9c65, 0x92722c851482353b, 0x8cc702081a6439ec, 0x6c44198c4a475817⟩]

/-- R252's table. -/
def constantRows : List ConstantRow := constantRowsLow ++ constantRowsHigh

/-- The 80 round constants `K[0..79]`, the table read column by column (R252). -/
def roundConstants : List Word64 :=
  constantRows.map (·.k0) ++ constantRows.map (·.k20) ++ constantRows.map (·.k40) ++ constantRows.map (·.k60)

/-- The chaining value `H[0..7]`, and the working variables `a..h` (R253, R257). -/
structure HashWords where
  a : Word64
  b : Word64
  c : Word64
  d : Word64
  e : Word64
  f : Word64
  g : Word64
  h : Word64
deriving DecidableEq, Repr

/-- The initial hash value `H(0)` (R253). -/
def initialHash : HashWords :=
  ⟨0x6a09e667f3bcc908, 0xbb67ae8584caa73b,
   0x3c6ef372fe94f82b, 0xa54ff53a5f1d36f1,
   0x510e527fade682d1, 0x9b05688c2b3e6c1f,
   0x1f83d9abfb41bd6b, 0x5be0cd19137e2179⟩

/-- The number of zero bytes in the padding of an `l`-byte message: the least `z` with
`l + 1 + z ≡ 112 (mod 128)` (R254). -/
def shaZeros (l : Nat) : Nat := (239 - l % 128) % 128

/-- A number as `n` big-endian bytes; `LEN128` is the case `n = 16` (R254). -/
def bytesOfNatBE : Nat → Nat → Bytes
  | 0, _ => []
  | n + 1, v => bytesOfNatBE n (v / 256) ++ [BitVec.ofNat 8 v]

/-- The padded message `M || 0x80 || 0x00^z || LEN128(8 l)` (R254). -/
def shaPad (m : Bytes) : Bytes :=
  m ++ [0x80] ++ List.replicate (shaZeros m.length) 0x00 ++ bytesOfNatBE 16 (8 * m.length)

/-- The blocks of `n` bytes of a sequence whose length is a multiple of `n` (R255, R301). -/
def chunks (n : Nat) (s : Bytes) : List Bytes :=
  (List.range (s.length / n)).map fun i => (s.drop (n * i)).take n

/-- `n` further words of the message schedule; `w` holds the words so far, newest first, so that
`W[t-2]`, `W[t-7]`, `W[t-15]`, `W[t-16]` are its elements 1, 6, 14 and 15 (R256). -/
def scheduleGo : Nat → List Word64 → List Word64
  | 0, w => w
  | n + 1, w =>
    scheduleGo n
      ((smallSigma1 (w.getD 1 0) + w.getD 6 0 + smallSigma0 (w.getD 14 0) + w.getD 15 0) :: w)

/-- The message schedule `W[0..79]` of a 128-byte block (R256). -/
def schedule (block : Bytes) : List Word64 :=
  (scheduleGo 64 ((List.range 16).map (wordOfBytesBE block)).reverse).reverse

/-- One step `t` of the compression, with `K[t]` and `W[t]` (R257). -/
def shaRound (v : HashWords) (kw : Word64 × Word64) : HashWords :=
  let t1 := v.h + bigSigma1 v.e + shaCh v.e v.f v.g + kw.1 + kw.2
  let t2 := bigSigma0 v.a + shaMaj v.a v.b v.c
  ⟨t1 + t2, v.a, v.b, v.c, v.d + t1, v.e, v.f, v.g⟩

/-- Wordwise addition modulo 2^64 of two chaining values (R257). -/
def HashWords.add (x y : HashWords) : HashWords :=
  ⟨x.a + y.a, x.b + y.b, x.c + y.c, x.d + y.d, x.e + y.e, x.f + y.f, x.g + y.g, x.h + y.h⟩

/-- Compression of one block into the chaining value (R257). -/
def compress (h : HashWords) (block : Bytes) : HashWords :=
  h.add ((roundConstants.zip (schedule block)).foldl shaRound h)

/-- The digest bytes of a chaining value, `H[0]` first, each word big-endian (R258). -/
def HashWords.bytes (x : HashWords) : Bytes :=
  bytesOfWordBE x.a ++ bytesOfWordBE x.b ++ bytesOfWordBE x.c ++ bytesOfWordBE x.d ++
  bytesOfWordBE x.e ++ bytesOfWordBE x.f ++ bytesOfWordBE x.g ++ bytesOfWordBE x.h

/-- `SHA512(M)`: the 64-byte digest of any byte sequence (R258). -/
def sha512 (m : Bytes) : Bytes := ((chunks 128 (shaPad m)).foldl compress initialHash).bytes

/-- Every byte of a sequence xor one byte (R259). -/
def xorByte (s : Bytes) (b : Byte) : Bytes := s.map (· ^^^ b)

/-- `K0`: a key of at most 128 bytes followed by zero bytes up to 128 (R259). -/
def hmacKey (k : Bytes) : Bytes := k ++ List.replicate (128 - k.length) 0x00

/-- `HMAC512(K, m)`: 64 bytes (R259). -/
def hmac512 (k m : Bytes) : Bytes :=
  sha512 (xorByte (hmacKey k) 0x5c ++ sha512 (xorByte (hmacKey k) 0x36 ++ m))

/-- The tag: the first 32 bytes of the HMAC; the rest is discarded (R260). -/
def tagOf (macKey m : Bytes) : Bytes := (hmac512 macKey m).take 32

end Sys2Proof.Machine
end

