-- ==== Sys2Proof/Machine/State.lean ====
section
/-! DEFINITION. The state of the block, field by field as 10_state.md R31 lists it, with the RNG
port's request state (R49) and the datapath registers (R50), and the reset state (70_reset_and_hazards.md
R450). After these come the model's own fields: the parameters, the outside world's pending actions and
its last answer, and the count of clock cycles a running command has left. -/

namespace Sys2Proof.Machine

/-- The machine stops with a fault: it never does. No step of the block stops the machine: every error
is a result code (60_exceptions.md R400, R410) and every bad access is answered SLVERR with no effect
(20_memory.md R97), so the type has no constructor. Nobody raises a fault; safe. -/
inductive Fault
deriving DecidableEq, Repr

/-- An instruction without a meaning. -/
inductive Refusal where
  /-- An instruction the model does not give a meaning yet, by its mnemonic in the opcode table. No arm of
  `exec` raises it: every command has its meaning. Safe: a refusal claims nothing about the hardware. -/
  | notModelled (mnemonic : String)
deriving DecidableEq, Repr

/-- The byte memory behind IBUF: the bytes written since the last reset, by their offset in the window,
offsets strictly rising. An offset that is not listed reads as `ibufByte` says (Ops.lean). -/
abbrev Memory := List Host.Cell

/-- The key store (R45): two 32-byte keys that no bus access reads, and `key_valid`. -/
structure KeyStore where
  encKey : Vector Byte 32
  macKey : Vector Byte 32
  valid : Bool
deriving DecidableEq, Repr

/-- The key store with no key: all zero and not valid (R45, R46). -/
def KeyStore.empty : KeyStore := ⟨Vector.replicate 32 0, Vector.replicate 32 0, false⟩

/-- The command snapshot: what a command reads, fixed at acceptance (R48; 40_commands.md R151). -/
structure Snapshot where
  /-- `CMD.OP` and `CMD.RSV` of the accepted word. -/
  word : CmdWord
  inLen : BitVec 16
  keyLen : BitVec 16
  strict : Bool
  kstage : Vector Byte 64
  /-- `IBUF[0 : min(IN_LEN, BUF_BYTES)]`. -/
  data : Bytes
  /-- The key store at acceptance. -/
  keys : KeyStore
deriving DecidableEq, Repr

/-- The sequencer phase (R47). `STATUS.BUSY` is 1 exactly when it is not `idle`. -/
inductive Phase where
  | idle
  | run (snap : Snapshot)
  | rngWait (snap : Snapshot)
deriving DecidableEq, Repr

/-- One answer of the RNG port: the number of bytes supplied, the source's condition, and the bytes, of
which those at or past `count` are ignored (60_exceptions.md R430, R431). -/
structure RngAnswer where
  count : Fin 17
  cond : BitVec 2
  bytes : Vector Byte 16
deriving DecidableEq, Repr

/-- The RNG port as the block sees it: `rng_pending` (R49), and the answer that has come and that the
SEAL waiting for it has not used yet (R430). -/
structure RngPort where
  pending : Bool
  answer : Option RngAnswer
deriving DecidableEq, Repr

/-- No request outstanding and no answer held (R49, R450). -/
def RngPort.quiet : RngPort := ⟨false, none⟩

/-- The datapath working registers of R50, none of them visible to the host. The model computes a
command's result in its completion step, which clears them, so they hold zero between steps (log entry 7).
DESIGN CHOICE (log entry 17): R50 gives OPEN's scratch no size and the block counters no number or width; the
model has a byte sequence of any length, whose zero is the empty one, and one counter without a bound. -/
structure Datapath where
  aesState : Block
  roundKeys : Vector Word 60
  chain : Block
  hash : HashWords
  working : HashWords
  schedule : Vector Word64 80
  innerDigest : BitVec 512
  compare : Byte
  /-- OPEN's decrypted-plaintext scratch, of any length (DESIGN CHOICE, log entry 17). -/
  scratch : Bytes
  /-- The block counters, held as one without a bound (DESIGN CHOICE, log entry 17). -/
  blockCount : Nat
deriving DecidableEq, Repr

/-- A column of zero bytes. -/
def Col.zero : Col := ⟨0, 0, 0, 0⟩

/-- A block of zero bytes. -/
def Block.zero : Block := ⟨Col.zero, Col.zero, Col.zero, Col.zero⟩

/-- Eight zero words. -/
def HashWords.zero : HashWords := ⟨0, 0, 0, 0, 0, 0, 0, 0⟩

/-- Every datapath register cleared (R50, R152, R450). -/
def Datapath.zero : Datapath :=
  ⟨Block.zero, Vector.replicate 60 0, Block.zero, HashWords.zero, HashWords.zero,
   Vector.replicate 80 0, 0, 0, [], 0⟩

/-- The response of a bus access (20_memory.md R94). -/
inductive Resp where
  | okay
  | slverr
deriving DecidableEq, Repr

/-- What a bus access returned to the host: `BusRead` a word and a response, `BusWrite` a response (R94). -/
inductive BusReply where
  | read (rdata : Word) (resp : Resp)
  | write (resp : Resp)
deriving DecidableEq, Repr

/-- One action from outside the block, or one cycle of its clock. A list of them is the one total order
of R102: each bus access, RNG answer and reset is one step, and the cycles between them are the engine's. -/
inductive Input where
  /-- The host's `BusRead(addr)` (R95). -/
  | busRead (addr : BitVec 16)
  /-- The host's `BusWrite(addr, wdata, strb)` (R96). -/
  | busWrite (addr : BitVec 16) (wdata : Word) (strb : BitVec 4)
  /-- The host's `POLL off, mask, val`: repeat the read until `(rdata and mask) = val` (30_encoding.md R139). -/
  | poll (addr : BitVec 16) (mask val : Word)
  /-- The RNG port's answer to the request that is outstanding (60_exceptions.md R430). With none outstanding
  it is discarded. The answer to a withdrawn request that comes after a later request has no effect
  (70_reset_and_hazards.md R450), so it is no action of the list. -/
  | rngAnswer (a : RngAnswer)
  /-- The reset input is asserted, or power is lost and returns (70_reset_and_hazards.md R450). -/
  | reset
  /-- One cycle of the block's clock with no action from outside. -/
  | clock
deriving DecidableEq, Repr

/-- The state of the block (10_state.md R30, R31), and the model's own fields after it. `ID` and `CMD`
hold no state (R33, R35), `PARAM` is `cfg.bufBytes` (R41), `STATUS.BUSY` is the phase (R47) and `irq` is a
function of two fields (60_exceptions.md R420). -/
structure State where
  /-- `CTRL.STRICT` (R34). -/
  ctrlStrict : Bool
  /-- `CTRL.IRQ_EN` (R34). -/
  ctrlIrqEn : Bool
  /-- `STATUS.ERR` (R36), by the name of its code. -/
  statusErr : Err
  /-- `STATUS.RNG_COND` (R36). -/
  statusRngCond : BitVec 2
  /-- `STATUS.RNG_COUNT` (R36), 0 to 16. -/
  statusRngCount : Fin 17
  /-- `STATUS.LAST_OP` (R36). -/
  statusLastOp : BitVec 4
  /-- `EVENT.DONE` (R37). -/
  evDone : Bool
  /-- `EVENT.CMD_DROPPED` (R37). -/
  evCmdDropped : Bool
  /-- `EVENT.WR_IGNORED` (R37). -/
  evWrIgnored : Bool
  /-- `KEY_LEN.LEN` (R38). -/
  keyLen : BitVec 16
  /-- `IN_LEN.LEN` (R39). -/
  inLen : BitVec 16
  /-- `OUT_LEN.LEN` (R40). -/
  outLen : BitVec 16
  /-- `KSTAGE` (R42). -/
  kstage : Vector Byte 64
  /-- `IBUF` (R43). -/
  ibuf : Memory
  /-- `obuf`, the content of OBUF, `OUT_LEN` bytes (R44). -/
  obuf : Bytes
  /-- The key store (R45). -/
  keys : KeyStore
  /-- The sequencer phase with its snapshot (R47, R48). -/
  phase : Phase
  /-- The RNG port's request state (R49). -/
  rng : RngPort
  /-- The datapath working registers (R50). -/
  dp : Datapath
  /-- MODEL: the parameters of R7, which no step changes. -/
  cfg : Config
  /-- MODEL: how many resets there have been since the state after the first one; it picks the free
  contents of IBUF (R451). -/
  resets : Nat
  /-- MODEL: clock cycles the running command still has before it completes (R470), when above 1. -/
  cyclesLeft : Nat
  /-- MODEL: the outside world's pending actions, in the order they reach the block (R102). -/
  inputs : List Input
  /-- MODEL: what the last bus access returned to the host (R94). -/
  reply : Option BusReply
deriving DecidableEq, Repr

/-- The state a reset leaves (70_reset_and_hazards.md R450), for given parameters, after `n` earlier
resets, with the outside world's actions still to come. -/
def State.resetWith (cfg : Config) (n : Nat) (inputs : List Input) : State where
  ctrlStrict := true
  ctrlIrqEn := false
  statusErr := .ok
  statusRngCond := 0
  statusRngCount := 0
  statusLastOp := 0
  evDone := false
  evCmdDropped := false
  evWrIgnored := false
  keyLen := 0
  inLen := 0
  outLen := 0
  kstage := Vector.replicate 64 0
  ibuf := []
  obuf := []
  keys := KeyStore.empty
  phase := .idle
  rng := RngPort.quiet
  dp := Datapath.zero
  cfg := cfg
  resets := n
  cyclesLeft := 0
  inputs := inputs
  reply := none

/-- The block right after reset (R450), with the default parameters (R7) and nothing pending outside. -/
def State.reset : State := State.resetWith Config.initial 0 []

end Sys2Proof.Machine
end

