-- ==== Sys2Proof/Machine/Operands.lean ====
section
/-! DEFINITION. Operand forms: the operands a command reads from its snapshot (30_encoding.md R134),
the key layout (R135), the fields of a sealed record (R136), and byte sequences of a fixed length. -/

namespace Sys2Proof.Machine

/-- The first `n` bytes of a sequence as a vector; a shorter sequence is followed by zero bytes, which no
command reaches. -/
def vecOfBytes (n : Nat) (s : Bytes) : Vector Byte n :=
  ⟨⟨(s ++ List.replicate n 0).take n⟩, by simp⟩

/-- The key store a 64-byte key gives: bytes 0..31 are `enc_key`, bytes 32..63 are `mac_key`
(10_state.md R45, R135). -/
def keyStoreOf (k : Vector Byte 64) : KeyStore :=
  ⟨vecOfBytes 32 (k.toList.take 32), vecOfBytes 32 ((k.toList.drop 32).take 32), true⟩

/-- The word that was written to CMD, from the snapshot's two fields (R130, R48). -/
def Snapshot.cmd (snap : Snapshot) : Word := cmdWordOf snap.word

/-- The `IN_LEN` operand: the 16-bit register value, zero-extended, never scaled (R134). -/
def Snapshot.length (snap : Snapshot) : Nat := snap.inLen.toNat

/-- `IBUF[0 : IN_LEN]` as the snapshot holds it: SEAL's plaintext, OPEN's record (R134). -/
def Snapshot.input (snap : Snapshot) : Bytes := snap.data.take snap.length

/-- `enc_key` as the AES key (41_aes256.md R214). -/
def Snapshot.encKey (snap : Snapshot) : Bytes := snap.keys.encKey.toList

/-- `mac_key` as the HMAC key (10_state.md R45). -/
def Snapshot.macKey (snap : Snapshot) : Bytes := snap.keys.macKey.toList

/-- The IV field `r[0:16]` of a record (R136). -/
def recordIv (r : Bytes) : Bytes := r.take 16

/-- The Ciphertext field `r[16:n-32]` of a record of length `n` (R136). -/
def recordCiphertext (r : Bytes) : Bytes := (r.drop 16).take (r.length - 48)

/-- The Tag field `r[n-32:n]` of a record of length `n` (R136). -/
def recordTag (r : Bytes) : Bytes := r.drop (r.length - 32)

/-- SEAL's length check passes: `L <= BUF_BYTES - 49` (00_scope.md R8; 40_commands.md R170). -/
def sealLengthOk (cfg : Config) (snap : Snapshot) : Bool := decide (snap.length + 49 ≤ cfg.bufBytes)

/-- OPEN's upper length check passes: `n <= BUF_BYTES` (R8, R180). -/
def openLengthOk (cfg : Config) (snap : Snapshot) : Bool := decide (snap.length ≤ cfg.bufBytes)

/-- OPEN's lower length check passes: `n >= 48` (00_scope.md R6, R180). -/
def openLongEnough (snap : Snapshot) : Bool := decide (48 ≤ snap.length)

/-- The IV of a full RNG answer: its 16 bytes, the first one produced first (60_exceptions.md R430). -/
def RngAnswer.iv (a : RngAnswer) : Bytes := a.bytes.toList

end Sys2Proof.Machine
end

