-- ==== Sys2Proof/Machine/Flags.lean ====
section
/-! DEFINITION. The flags and result codes: the words that STATUS, EVENT and CTRL read as (10_state.md
R34, R36, R37, R51), what sets and clears each flag, and the interrupt output (60_exceptions.md R420). -/

namespace Sys2Proof.Machine

/-- The numeric result code of `STATUS.ERR` (60_exceptions.md R401). -/
def errCode : Err → BitVec 4
  | .ok => 0
  | .invalidKeyLength => 1
  | .randomSourceExhausted => 2
  | .ciphertextTooShort => 3
  | .authenticationFailed => 4
  | .invalidPadding => 5
  | .keyNotLoaded => 6
  | .illegalCommand => 7
  | .lengthOutOfRange => 8

/-- `STATUS.BUSY`: the phase is not `Idle` (R47). -/
def State.busy (s : State) : Bool :=
  match s.phase with
  | .idle => false
  | .run _ => true
  | .rngWait _ => true

/-- The STATUS word, its fields from bit 31 down to bit 0 (R36). -/
def statusWord (s : State) : Word :=
  (0 : BitVec 12) ++ s.statusLastOp ++ (0 : BitVec 1) ++ BitVec.ofNat 5 s.statusRngCount.val ++
  s.statusRngCond ++ errCode s.statusErr ++ (0 : BitVec 2) ++ bit s.keys.valid ++ bit s.busy

/-- The CTRL word (R34; 20_memory.md R95). -/
def ctrlWord (s : State) : Word := (0 : BitVec 30) ++ bit s.ctrlIrqEn ++ bit s.ctrlStrict

/-- The EVENT word (R37; 20_memory.md R95). -/
def eventWord (s : State) : Word :=
  (0 : BitVec 29) ++ bit s.evWrIgnored ++ bit s.evCmdDropped ++ bit s.evDone

/-- A CTRL write while idle: bits 0 and 1, the rest ignored (R34, R52; 20_memory.md R96). -/
def writeCtrl (w : Word) (s : State) : State :=
  { s with ctrlStrict := w.getLsbD 0, ctrlIrqEn := w.getLsbD 1 }

/-- An EVENT write: each of bits 0 to 2 that is 1 clears its flag (R37). -/
def writeEvent (w : Word) (s : State) : State :=
  { s with
    evDone := s.evDone && !w.getLsbD 0
    evCmdDropped := s.evCmdDropped && !w.getLsbD 1
    evWrIgnored := s.evWrIgnored && !w.getLsbD 2 }

/-- A write to an input while busy: `EVENT.WR_IGNORED <- 1` and nothing else (20_memory.md R98). -/
def ignoreWrite (s : State) : State := { s with evWrIgnored := true }

/-- A CMD write while busy: `EVENT.CMD_DROPPED <- 1` and nothing else (40_commands.md R153). -/
def dropCommand (s : State) : State := { s with evCmdDropped := true }

/-- The interrupt output: `irq = CTRL.IRQ_EN and EVENT.DONE` (60_exceptions.md R420). -/
def State.irq (s : State) : Bool := s.ctrlIrqEn && s.evDone

end Sys2Proof.Machine
end

