-- ==== Sys2Proof/Machine/Timing.lean ====
section
/-! DEFINITION. Command latency in cycles of the block's clock (70_reset_and_hazards.md R470, R471):
which latency parameter a command has, as a function of exactly the arguments R471 allows. -/

namespace Sys2Proof.Machine

/-- `LAT_FIXED(op)`, at least 1 (R470). -/
def latencyFixed (cfg : Config) (op : BitVec 4) (e : Err) : Nat :=
  max 1 ((cfg.latFixed.lookup (op, e)).getD 1)

/-- `LAT_SEAL(L)`, at least 1 (R470). -/
def latencySeal (cfg : Config) (l : Nat) : Nat := max 1 ((cfg.latSeal.lookup l).getD 1)

/-- `LAT_OPEN(L)`, at least 1 (R470). -/
def latencyOpen (cfg : Config) (l : Nat) : Nat := max 1 ((cfg.latOpen.lookup l).getD 1)

/-- The latency of an accepted command, less the RNG port's response time: `LAT_FIXED` where a check fails
before any cryptographic operation and for KEY_LOAD, KEY_CLEAR and an illegal word, `LAT_SEAL` for a SEAL
that reaches its RNG request, `LAT_OPEN` for an OPEN that passes its length checks (R470). -/
def commandLatency (cfg : Config) (snap : Snapshot) : Nat :=
  let op := snap.word.op
  match decode snap.cmd with
  | .error _ => latencyFixed cfg op .illegalCommand
  | .ok .keyLoad => latencyFixed cfg op (if snap.keyLen = 64 then .ok else .invalidKeyLength)
  | .ok .keyClear => latencyFixed cfg op .ok
  | .ok .sealData =>
    if !snap.keys.valid then latencyFixed cfg op .keyNotLoaded
    else if !sealLengthOk cfg snap then latencyFixed cfg op .lengthOutOfRange
    else latencySeal cfg snap.length
  | .ok .openRecord =>
    if !snap.keys.valid then latencyFixed cfg op .keyNotLoaded
    else if !openLengthOk cfg snap then latencyFixed cfg op .lengthOutOfRange
    else if !openLongEnough snap then latencyFixed cfg op .ciphertextTooShort
    else latencyOpen cfg snap.length

end Sys2Proof.Machine
end

