-- ==== Sys2Proof/Machine/Ops.lean ====
section
/-! DEFINITION. The named operations over the state: IBUF's bytes, acceptance (40_commands.md R151),
completion with a result code (R152), which is all the block has of taking an exception (60_exceptions.md
R400, R410), the RNG request and its answer (R430), and the reset input (70_reset_and_hazards.md R450). -/

namespace Sys2Proof.Machine

/-- The byte written at offset `j` since the last reset, if there is one. -/
def Memory.read? (m : Memory) (j : Nat) : Option Byte := m.lookup j

/-- Write one byte, keeping the offsets strictly rising. -/
def Memory.write : Memory → Nat → Byte → Memory
  | [], j, v => [(j, v)]
  | (a, x) :: m, j, v =>
    if j < a then (j, v) :: (a, x) :: m
    else if j = a then (j, v) :: m
    else (a, x) :: Memory.write m j v

/-- The canonical form: offsets strictly rising, so equal contents are equal lists. -/
def Memory.wf : Memory → Bool
  | [] => true
  | [_] => true
  | (a, _) :: (b, x) :: m => decide (a < b) && Memory.wf ((b, x) :: m)

/-- Every listed offset lies inside IBUF (10_state.md R43). -/
def Memory.within (m : Memory) (n : Nat) : Bool := m.all fun c => decide (c.1 < n)

/-- `IBUF[j]`: the byte written there since the last reset, else the free contents of that reset
(R43; 70_reset_and_hazards.md R451). -/
def ibufByte (s : State) (j : Nat) : Byte :=
  (Memory.read? s.ibuf j).getD (Config.ibufReset s.resets j)

/-- `IBUF[0 : n]` (R12). -/
def ibufPrefix (s : State) (n : Nat) : Bytes := (List.range n).map (ibufByte s)

/-- Write four bytes of IBUF, lowest offset first (20_memory.md R96). -/
def writeIbufWord (j : Nat) (w : Word) (s : State) : State :=
  { s with
    ibuf := (((s.ibuf.write j (w.extractLsb' 0 8)).write (j + 1) (w.extractLsb' 8 8)).write
      (j + 2) (w.extractLsb' 16 8)).write (j + 3) (w.extractLsb' 24 8) }

/-- A KEY_LEN write while idle: bits 15:0, the rest ignored (10_state.md R38, R52). -/
def writeKeyLen (w : Word) (s : State) : State := { s with keyLen := w.setWidth 16 }

/-- An IN_LEN write while idle: bits 15:0, the rest ignored (R39, R52). -/
def writeInLen (w : Word) (s : State) : State := { s with inLen := w.setWidth 16 }

/-- Write four bytes of KSTAGE, lowest offset first (R96). -/
def writeKstageWord (j : Nat) (w : Word) (s : State) : State :=
  { s with
    kstage := (((s.kstage.setIfInBounds j (w.extractLsb' 0 8)).setIfInBounds (j + 1)
      (w.extractLsb' 8 8)).setIfInBounds (j + 2) (w.extractLsb' 16 8)).setIfInBounds (j + 3)
      (w.extractLsb' 24 8) }

/-- `ob(i)`: `obuf[i]` if `i < OUT_LEN`, else 0 (20_memory.md R95; 10_state.md R44). -/
def obufByte (s : State) (i : Nat) : Byte := if i < s.outLen.toNat then s.obuf.getD i 0 else 0

/-- The snapshot of the state for a command word (10_state.md R48; 40_commands.md R151). -/
def takeSnapshot (s : State) (c : CmdWord) : Snapshot where
  word := c
  inLen := s.inLen
  keyLen := s.keyLen
  strict := s.ctrlStrict
  kstage := s.kstage
  data := ibufPrefix s (min s.inLen.toNat s.cfg.bufBytes)
  keys := s.keys

/-- Acceptance of a command word, legal or not (R150, R151); the command has its latency before it (R470). -/
def accept (w : Word) (s : State) : State :=
  let snap := takeSnapshot s (cmdFields w)
  { s with
    phase := .run snap
    statusLastOp := snap.word.op
    statusErr := .ok
    statusRngCond := 0
    statusRngCount := 0
    evDone := false
    outLen := 0
    obuf := []
    cyclesLeft := commandLatency s.cfg snap }

/-- `complete(err, out, rng_count, rng_cond)`: the one atomic step that ends a command (R152). An error is
this operation with an error code and no output: it saves nothing else, changes no mode and transfers control
nowhere (60_exceptions.md R402, R410). The next command needs no return from it (R411). -/
def complete (e : Err) (out : Bytes) (s : State) (rngCount : Fin 17 := 0) (rngCond : BitVec 2 := 0) : State :=
  { s with
    obuf := out
    outLen := BitVec.ofNat 16 out.length
    statusErr := e
    statusRngCount := rngCount
    statusRngCond := rngCond
    dp := Datapath.zero
    phase := .idle
    rng := RngPort.quiet
    cyclesLeft := 0
    evDone := true }

/-- The completion of a failing command: its code and no output (R152). -/
def fail (e : Err) (s : State) : State := complete e [] s

/-- The engine's own step of a command: `f` applied to the command's snapshot while the phase is `Run`. In
phase `Idle` no command runs and in phase `RngWait` the engine waits for the port, so nothing changes
(R47, R154; 60_exceptions.md R438). -/
def runPhase (f : Snapshot → State → State) (s : State) : Host.Outcome State Fault Refusal :=
  match s.phase with
  | .run snap => .next (f snap s)
  | .idle => .next s
  | .rngWait _ => .next s

/-- `RngRequest(16)`: the SEAL issues its request and waits (R170; 60_exceptions.md R430). -/
def requestRng (snap : Snapshot) (s : State) : State :=
  { s with phase := .rngWait snap, rng := ⟨true, none⟩ }

/-- The RNG port answers: the outstanding request takes the answer and the SEAL goes on; an answer with no
request outstanding is discarded (R170, R430; 70_reset_and_hazards.md R450). -/
def answerRng (a : RngAnswer) (s : State) : State :=
  match s.phase, s.rng.pending with
  | .rngWait snap, true => { s with phase := .run snap, rng := ⟨false, some a⟩ }
  | _, _ => s

/-- The reset input, or power lost and back: every piece of state at its reset value, at any time and in any
phase; IBUF's contents are unspecified anew (R450). The parameters and the actions to come are not state of
the block. -/
def assertReset (s : State) : State := State.resetWith s.cfg (s.resets + 1) s.inputs

end Sys2Proof.Machine
end

