-- ==== Sys2Proof/Machine/Bus.lean ====
section
/-! DEFINITION. The host's register bus (20_memory.md R90 to R98): the address map of 10_state.md R32,
`BusRead` and `BusWrite`. Offsets are `addr[15:0]`, relative to the block's base. -/

namespace Sys2Proof.Machine

/-- What a 16-bit offset names (10_state.md R32). -/
inductive Target where
  | id
  | ctrl
  | cmd
  | status
  | event
  | keyLen
  | inLen
  | outLen
  | param
  /-- KSTAGE, at a window byte offset. -/
  | kstage (j : Nat)
  /-- IBUF, at a mapped window byte offset. -/
  | ibuf (j : Nat)
  /-- OBUF, at a mapped window byte offset. -/
  | obuf (j : Nat)
  | unmapped
deriving DecidableEq, Repr

/-- The constant that ID reads as, "ETM1" (R33). -/
def idValue : Word := 0x45544D31

/-- The registers at offsets below 0x0040; the offsets between and after them are unmapped (R32). -/
def registerAt : Nat → Target
  | 0x00 => .id
  | 0x04 => .ctrl
  | 0x08 => .cmd
  | 0x0C => .status
  | 0x10 => .event
  | 0x14 => .keyLen
  | 0x18 => .inLen
  | 0x1C => .outLen
  | 0x20 => .param
  | _ => .unmapped

/-- The register and window map (R32); a window offset at or above `BUF_BYTES` is unmapped (R97). -/
def targetOf (cfg : Config) (addr : BitVec 16) : Target :=
  if addr.toNat < 0x0040 then registerAt addr.toNat
  else if addr.toNat < 0x0080 then .kstage (addr.toNat - 0x0040)
  else if addr.toNat < 0x8000 then .unmapped
  else if addr.toNat < 0xC000 then
    if addr.toNat - 0x8000 < cfg.bufBytes then .ibuf (addr.toNat - 0x8000) else .unmapped
  else if addr.toNat - 0xC000 < cfg.bufBytes then .obuf (addr.toNat - 0xC000)
  else .unmapped

/-- `addr[1:0] = 00` (R92). -/
def aligned (addr : BitVec 16) : Bool := addr.extractLsb' 0 2 == 0

/-- The word of four window bytes from offset `j`, little-endian (R91). -/
def windowWord (byteAt : Nat → Byte) (j : Nat) : Word :=
  wordOfBytesLE (byteAt j) (byteAt (j + 1)) (byteAt (j + 2)) (byteAt (j + 3))

/-- `BusRead(addr)`: data and response, with no effect on any state (R93, R95). -/
def busRead (s : State) (addr : BitVec 16) : Word × Resp :=
  if !aligned addr then (0, .slverr)
  else
    match targetOf s.cfg addr with
    | .id => (idValue, .okay)
    | .ctrl => (ctrlWord s, .okay)
    | .cmd => (0, .okay)
    | .status => (statusWord s, .okay)
    | .event => (eventWord s, .okay)
    | .keyLen => (s.keyLen.setWidth 32, .okay)
    | .inLen => (s.inLen.setWidth 32, .okay)
    | .outLen => (s.outLen.setWidth 32, .okay)
    | .param => (BitVec.ofNat 32 s.cfg.bufBytes, .okay)
    | .kstage _ => (0, .okay)
    | .ibuf j => (windowWord (ibufByte s) j, .okay)
    | .obuf j => (windowWord (obufByte s) j, .okay)
    | .unmapped => (0, .slverr)

/-- A write to an input of the engine: `write` while idle, ignored while busy (R98). -/
def inputWrite (write : State → State) (s : State) : State :=
  if s.busy then ignoreWrite s else write s

/-- A CMD write: accepted while idle, dropped while busy (40_commands.md R150, R153). -/
def writeCmd (w : Word) (s : State) : State := if s.busy then dropCommand s else accept w s

/-- `BusWrite(addr, wdata, strb)`: the state after it and the response (R96). -/
def busWrite (s : State) (addr : BitVec 16) (w : Word) (strb : BitVec 4) : State × Resp :=
  if !aligned addr || strb != 0b1111 then (s, .slverr)
  else
    match targetOf s.cfg addr with
    | .id => (s, .okay)
    | .ctrl => (inputWrite (writeCtrl w) s, .okay)
    | .cmd => (writeCmd w s, .okay)
    | .status => (s, .okay)
    | .event => (writeEvent w s, .okay)
    | .keyLen => (inputWrite (writeKeyLen w) s, .okay)
    | .inLen => (inputWrite (writeInLen w) s, .okay)
    | .outLen => (s, .okay)
    | .param => (s, .okay)
    | .kstage j => (inputWrite (writeKstageWord j w) s, .okay)
    | .ibuf j => (inputWrite (writeIbufWord j w) s, .okay)
    | .obuf _ => (s, .okay)
    | .unmapped => (s, .slverr)

end Sys2Proof.Machine
end

