-- ==== Sys2Proof/Machine/Illegal.lean ====
section
/-! DEFINITION. The illegal command (40_commands.md R190): a word the decoder rejects is accepted like
any other and completes with `IllegalCommand`. It has no row in the opcode table and no constructor. -/

namespace Sys2Proof.Machine

/-- The illegal command (R190). -/
def execIllegal (s : State) : Host.Outcome State Fault Refusal :=
  runPhase (fun _ => fail .illegalCommand) s

end Sys2Proof.Machine
end

