-- ==== Sys2Proof/Machine/KeyCommands.lean ====
section
/-! DEFINITION. The key commands KEY_LOAD and KEY_CLEAR (40_commands.md R160, R165). -/

namespace Sys2Proof.Machine

/-- KSTAGE set to 64 zero bytes (R160, R165). -/
def wipeKstage (s : State) : State := { s with kstage := Vector.replicate 64 0 }

/-- KEY_LEN reset to 0 (R160). -/
def wipeKeyLen (s : State) : State := { s with keyLen := 0 }

/-- The key store replaced (10_state.md R45). -/
def setKeys (k : KeyStore) (s : State) : State := { s with keys := k }

/-- KEY_LOAD's completion: KSTAGE and KEY_LEN wiped always; the key taken from the snapshot's KSTAGE when
KEY_LEN is 64, else removed (R160). -/
def completeKeyLoad (snap : Snapshot) (s : State) : State :=
  let t := wipeKeyLen (wipeKstage s)
  if snap.keyLen = 64 then complete .ok [] (setKeys (keyStoreOf snap.kstage) t)
  else fail .invalidKeyLength (setKeys KeyStore.empty t)

/-- KEY_CLEAR's completion: the key store emptied and KSTAGE wiped; KEY_LEN stays (R165). -/
def completeKeyClear (_ : Snapshot) (s : State) : State :=
  complete .ok [] (setKeys KeyStore.empty (wipeKstage s))

/-- KEY_LOAD (R160). -/
def execKeyLoad (s : State) : Host.Outcome State Fault Refusal := runPhase completeKeyLoad s

/-- KEY_CLEAR (R165). -/
def execKeyClear (s : State) : Host.Outcome State Fault Refusal := runPhase completeKeyClear s

end Sys2Proof.Machine
end

