-- ==== Sys2Proof/Machine/Cbc.lean ====
section
/-! DEFINITION. CBC chaining, PKCS#7 padding, the constant-time comparator and the constant-time
padding check (43_cbc_padding_compare.md R300 to R306). Internal: reached only through SEAL and OPEN. -/

namespace Sys2Proof.Machine

/-- CBC encryption of blocks from chaining value `cv` (R300, R301). -/
def cbcEncBlocks (w : List Col) : Block → List Block → List Block
  | _, [] => []
  | cv, p :: ps =>
    let c := cipherBlock w (p.xor cv)
    c :: cbcEncBlocks w c ps

/-- CBC decryption of blocks from chaining value `cv` (R300, R302). -/
def cbcDecBlocks (w : List Col) : Block → List Block → List Block
  | _, [] => []
  | cv, c :: cs => (invCipherBlock w c).xor cv :: cbcDecBlocks w c cs

/-- `CBC_E(k, IV, P)` for a `P` of whole 16-byte blocks (R301). -/
def cbcE (k iv p : Bytes) : Bytes :=
  (cbcEncBlocks (keyExpansion k) (Block.load iv) ((chunks 16 p).map Block.load)).flatMap Block.unload

/-- `CBC_D(k, IV, C)` for a `C` of whole 16-byte blocks (R302). -/
def cbcD (k iv c : Bytes) : Bytes :=
  (cbcDecBlocks (keyExpansion k) (Block.load iv) ((chunks 16 c).map Block.load)).flatMap Block.unload

/-- `pad16(L) = 16 * (floor(L/16) + 1)` (00_scope.md R11). -/
def pad16 (l : Nat) : Nat := 16 * (l / 16 + 1)

/-- `PAD(P)`: `N = 16 - (L mod 16)` bytes of value `N` appended (R303). -/
def pad (p : Bytes) : Bytes :=
  let n := 16 - p.length % 16
  p ++ List.replicate n (BitVec.ofNat 8 n)

/-- `N`, the last byte of a sequence (R304). -/
def padByte (pp : Bytes) : Byte := pp.getD (pp.length - 1) 0

/-- `PAD_OK(PP)`: `1 <= N <= 16` and the last `N` bytes all equal `N` (R304). -/
def padOk (pp : Bytes) : Bool :=
  let n := (padByte pp).toNat
  decide (1 ≤ n ∧ n ≤ 16) && (pp.drop (pp.length - n)).all (· == padByte pp)

/-- `UNPAD(PP) = PP[0 : l-N]` (R304). -/
def unpad (pp : Bytes) : Bytes := pp.take (pp.length - (padByte pp).toNat)

/-- The padding check as the hardware computes it: all 16 bytes of the last block compared with `N` under a
mask that selects positions `j >= 16 - N`, with no early exit (R306). -/
def padOkMasked (pp : Bytes) : Bool :=
  let last := pp.drop (pp.length - 16)
  let n := padByte pp
  let d := (List.range 16).foldl
    (fun d j => d ||| (if 16 ≤ j + n.toNat then last.getD j 0 ^^^ n else 0)) (0 : Byte)
  decide (1 ≤ n.toNat ∧ n.toNat ≤ 16) && d == 0

/-- The comparator's accumulator `D` after all 32 positions (R305). -/
def ctAcc (a b : Bytes) : Byte :=
  (List.range 32).foldl (fun d i => d ||| (a.getD i 0 ^^^ b.getD i 0)) 0

/-- `CT_EQ(a, b)` for two 32-byte sequences: every position examined, no early exit (R305). -/
def ctEq (a b : Bytes) : Bool := ctAcc a b == 0

end Sys2Proof.Machine
end

