-- ==== Sys2Proof/Machine/SealOpen.lean ====
section
/-! DEFINITION. SEAL (40_commands.md R170) and OPEN (R180), encrypt-then-MAC and verify-then-decrypt. -/

namespace Sys2Proof.Machine

/-- The sealed record of a plaintext: `IV || C || T` with `C = CBC_E(enc_key, IV, PAD(P))` and
`T = HMAC512(mac_key, IV || C)[0:32]` (R170; 30_encoding.md R136; 42_sha512_hmac.md R261). -/
def sealRecord (encKey macKey iv p : Bytes) : Bytes :=
  let c := cbcE encKey iv (pad p)
  iv ++ c ++ tagOf macKey (iv ++ c)

/-- SEAL once the RNG port has answered: a short read fails with the port's own count and condition, a full
one gives the record (R170). -/
def completeSeal (snap : Snapshot) (a : RngAnswer) (s : State) : State :=
  if a.count.val < 16 then complete .randomSourceExhausted [] s a.count a.cond
  else complete .ok (sealRecord snap.encKey snap.macKey a.iv snap.input) s 16 0

/-- One engine step of SEAL: the two checks, then the RNG request, then, with the answer, the rest
(R170; 60_exceptions.md R405). The checks read only the snapshot, so they come out the same both times. -/
def stepSeal (snap : Snapshot) (s : State) : State :=
  if !snap.keys.valid then fail .keyNotLoaded s
  else if !sealLengthOk s.cfg snap then fail .lengthOutOfRange s
  else
    match s.rng.answer with
    | none => requestRng snap s
    | some a => completeSeal snap a s

/-- The code of a padding-class failure: `AuthenticationFailed` when STRICT, else `InvalidPadding` (R180). -/
def paddingError (snap : Snapshot) : Err := if snap.strict then .authenticationFailed else .invalidPadding

/-- OPEN of an authenticated record: the length class of the ciphertext, then decryption, then the padding
(R180, R181). -/
def completeDecrypt (snap : Snapshot) (s : State) : State :=
  let r := snap.input
  let c := recordCiphertext r
  if c.length = 0 ∨ c.length % 16 ≠ 0 then fail (paddingError snap) s
  else
    let pp := cbcD snap.encKey (recordIv r) c
    if !padOk pp then fail (paddingError snap) s else complete .ok (unpad pp) s

/-- The tag that OPEN recomputes for its record, over `IV || C` (R180; 42_sha512_hmac.md R261). -/
def expectedTag (snap : Snapshot) : Bytes :=
  tagOf snap.macKey (recordIv snap.input ++ recordCiphertext snap.input)

/-- OPEN's completion: the checks in the order of R405, the tag before any decryption or padding inspection
(R180, R181). -/
def completeOpen (snap : Snapshot) (s : State) : State :=
  if !snap.keys.valid then fail .keyNotLoaded s
  else if !openLengthOk s.cfg snap then fail .lengthOutOfRange s
  else if !openLongEnough snap then fail .ciphertextTooShort s
  else if !ctEq (recordTag snap.input) (expectedTag snap) then fail .authenticationFailed s
  else completeDecrypt snap s

/-- SEAL (R170). -/
def execSeal (s : State) : Host.Outcome State Fault Refusal := runPhase stepSeal s

/-- OPEN (R180). -/
def execOpen (s : State) : Host.Outcome State Fault Refusal := runPhase completeOpen s

end Sys2Proof.Machine
end

