-- ==== Sys2Proof/Machine/Dispatch.lean ====
section
/-! DEFINITION. One arm per command of the opcode table (30_encoding.md R131). -/

namespace Sys2Proof.Machine

/-- One engine step of a command, in a state whose phase holds its snapshot. -/
def exec (i : Instr) (s : State) : Host.Outcome State Fault Refusal :=
  match i with
  | .keyLoad => Sys2Proof.Machine.execKeyLoad s
  | .keyClear => Sys2Proof.Machine.execKeyClear s
  | .sealData => Sys2Proof.Machine.execSeal s
  | .openRecord => Sys2Proof.Machine.execOpen s

end Sys2Proof.Machine
end

