-- ==== Sys2Proof/Machine/Engine.lean ====
section
/-! DEFINITION. What moves the block: one cycle of its clock (70_reset_and_hazards.md R470), and one
action from outside (20_memory.md R102). A SEAL that waits for an answer that never comes stays where it is
(40_commands.md R154). -/

namespace Sys2Proof.Machine

/-- The command word of a snapshot decoded and run; a word that is no command is the illegal command
(30_encoding.md R132, R133). -/
def runCommand (snap : Snapshot) (s : State) : Host.Outcome State Fault Refusal :=
  match decode snap.cmd with
  | .ok i => exec i s
  | .error _ => execIllegal s

/-- One cycle of the block's clock: an idle block and one that waits for the RNG port do nothing; a running
command uses up its latency, and in its last cycle takes its step (R470, R154; 60_exceptions.md R438). -/
def clockCycle (s : State) : Host.Outcome State Fault Refusal :=
  match s.phase with
  | .idle => .next s
  | .rngWait _ => .next s
  | .run snap =>
    if 1 < s.cyclesLeft then .next { s with cyclesLeft := s.cyclesLeft - 1 } else runCommand snap s

/-- One action taken from the front of the list; `s` is the state without it. A poll that has not seen its
value goes back to the front, and the block has a cycle before the next read (30_encoding.md R139); a bus
access in the same cycle comes first (20_memory.md R100). -/
def applyInput (i : Input) (s : State) : Host.Outcome State Fault Refusal :=
  match i with
  | .busRead addr =>
    let r := busRead s addr
    .next { s with reply := some (.read r.1 r.2) }
  | .busWrite addr w strb =>
    let r := busWrite s addr w strb
    .next { r.1 with reply := some (.write r.2) }
  | .poll addr mask val =>
    let r := busRead s addr
    let t := { s with reply := some (.read r.1 r.2) }
    if r.1 &&& mask = val then .next t
    else clockCycle { t with inputs := .poll addr mask val :: s.inputs }
  | .rngAnswer a => .next (answerRng a s)
  | .reset => .next (assertReset s)
  | .clock => clockCycle s

/-- The block's next move: the first pending action from outside, or a clock cycle when there is none. -/
def advance (s : State) : Host.Outcome State Fault Refusal :=
  match s.inputs with
  | [] => clockCycle s
  | i :: rest => applyInput i { s with inputs := rest }

/-- A command word put where the engine runs its next command: accepted, in its last cycle, with no action
from outside before it. It stands for the host's write of the word to CMD (40_commands.md R150). -/
def placeCommand (w : Word) (s : State) : State :=
  { accept w s with cyclesLeft := 1, inputs := [], rng := RngPort.quiet }

end Sys2Proof.Machine
end

