-- ==== Sys2Proof/Machine/Step.lean ====
section
/-! DEFINITION. One step of the block, and a command placed as its next one. -/

namespace Sys2Proof.Machine

/-- One step: the next action from outside, or one cycle of the block's clock (20_memory.md R102). -/
def step (s : State) : Host.Outcome State Fault Refusal := advance s

/-- The state with the command whose `nbits` table bits are `w` as the next one to run. -/
def State.withFetchWord (s : State) (nbits w : Nat) : State :=
  placeCommand (BitVec.ofNat 32 (w % 2 ^ nbits)) s

end Sys2Proof.Machine
end

