-- ==== Sys2Proof/Safety.lean ====
section
/-! DEFINITION. What the rules say holds in every state a run reaches: the invariant of the block, in
named parts, and the terms claims are stated in. -/

namespace Sys2Proof.Machine

/-- IBUF's memory is in its canonical form and inside the window (10_state.md R43). -/
def State.memoryOk (s : State) : Prop :=
  s.ibuf.wf = true ∧ s.ibuf.within s.cfg.bufBytes = true

/-- `obuf` has `OUT_LEN` bytes, which fit OBUF, and an error has no output (10_state.md R44; 40_commands.md
R152; 60_exceptions.md R402). -/
def State.outputOk (s : State) : Prop :=
  s.obuf.length = s.outLen.toNat ∧ s.outLen.toNat ≤ s.cfg.bufBytes ∧
    (s.statusErr ≠ .ok → s.outLen = 0)

/-- `key_valid = 0` implies that both keys are all zero bytes (10_state.md R46). -/
def State.keysOk (s : State) : Prop := s.keys.valid = false → s.keys = KeyStore.empty

/-- RNG_COND is 0 but after a short read, RNG_COUNT is 0 but after a SEAL that reached its request, and a
short read supplied fewer than 16 bytes (10_state.md R36; 60_exceptions.md R402). -/
def State.rngFieldsOk (s : State) : Prop :=
  (s.statusErr ≠ .randomSourceExhausted → s.statusRngCond = 0) ∧
  (s.statusErr = .randomSourceExhausted → s.statusRngCount.val < 16) ∧
  (s.statusRngCount ≠ 0 → s.statusLastOp = 0x3 ∧ (s.statusErr = .ok ∨ s.statusErr = .randomSourceExhausted))

/-- What a running command leaves visible, and its snapshot equal to the live values (10_state.md R48;
20_memory.md R99; 40_commands.md R151). -/
def State.runningOk (s : State) (snap : Snapshot) : Prop :=
  snap = takeSnapshot s snap.word ∧ s.statusLastOp = snap.word.op ∧ s.statusErr = .ok ∧
  s.statusRngCond = 0 ∧ s.statusRngCount = 0 ∧ s.evDone = false ∧ s.outLen = 0 ∧ s.obuf = []

/-- A SEAL that has passed the two checks before its RNG request (40_commands.md R170). -/
def Snapshot.asksRng (cfg : Config) (snap : Snapshot) : Prop :=
  decode snap.cmd = .ok .sealData ∧ snap.keys.valid = true ∧ sealLengthOk cfg snap = true

/-- The phase, the snapshot and the RNG port agree: a request is pending exactly in `RngWait`, only a SEAL
past its checks asks or holds an answer, and an idle block holds none and has its datapath cleared
(10_state.md R47 to R50; 60_exceptions.md R430). -/
def State.phaseOk (s : State) : Prop :=
  match s.phase with
  | .idle => s.rng = RngPort.quiet ∧ s.dp = Datapath.zero
  | .run snap =>
    s.runningOk snap ∧ s.rng.pending = false ∧ (s.rng.answer ≠ none → snap.asksRng s.cfg)
  | .rngWait snap => s.runningOk snap ∧ s.rng = ⟨true, none⟩ ∧ snap.asksRng s.cfg

/-- The invariant of the block: legal parameters and every part above. -/
structure State.Inv (s : State) : Prop where
  cfg : s.cfg.legal = true
  memory : s.memoryOk
  output : s.outputOk
  keys : s.keysOk
  rngFields : s.rngFieldsOk
  phase : s.phaseOk

/-- What a bus read may depend on: every field but the two keys, KSTAGE, the snapshot, the RNG port and the
datapath. Two states that agree on it look alike on the bus (10_state.md R42, R45; 20_memory.md R106). -/
def State.busAgree (s t : State) : Prop :=
  s.ctrlStrict = t.ctrlStrict ∧ s.ctrlIrqEn = t.ctrlIrqEn ∧ s.statusErr = t.statusErr ∧
  s.statusRngCond = t.statusRngCond ∧ s.statusRngCount = t.statusRngCount ∧
  s.statusLastOp = t.statusLastOp ∧ s.evDone = t.evDone ∧ s.evCmdDropped = t.evCmdDropped ∧
  s.evWrIgnored = t.evWrIgnored ∧ s.keyLen = t.keyLen ∧ s.inLen = t.inLen ∧ s.outLen = t.outLen ∧
  s.ibuf = t.ibuf ∧ s.resets = t.resets ∧ s.obuf = t.obuf ∧ s.keys.valid = t.keys.valid ∧
  s.busy = t.busy ∧ s.cfg = t.cfg

/-- The registers and windows that no command changes: CTRL, LAST_OP, the two sticky event flags, IN_LEN and
every byte of IBUF (10_state.md R39, R43; 40_commands.md R152; 70_reset_and_hazards.md R472), and the model's own
parameters, inputs and last bus reply. -/
def State.commandFrame (s t : State) : Prop :=
  t.ctrlStrict = s.ctrlStrict ∧ t.ctrlIrqEn = s.ctrlIrqEn ∧ t.statusLastOp = s.statusLastOp ∧
  t.evCmdDropped = s.evCmdDropped ∧ t.evWrIgnored = s.evWrIgnored ∧ t.inLen = s.inLen ∧
  t.ibuf = s.ibuf ∧ t.resets = s.resets ∧ (∀ j, ibufByte t j = ibufByte s j) ∧
  t.cfg = s.cfg ∧ t.inputs = s.inputs ∧ t.reply = s.reply

/-- What every completion leaves beside its code and output: the block idle, DONE set, the RNG port quiet and
the datapath cleared (40_commands.md R152). -/
def State.completed (t : State) (e : Err) (out : Bytes) (count : Fin 17) (cond : BitVec 2) : Prop :=
  t.obuf = out ∧ t.outLen = BitVec.ofNat 16 out.length ∧ t.statusErr = e ∧ t.statusRngCount = count ∧
  t.statusRngCond = cond ∧ t.phase = .idle ∧ t.evDone = true ∧ t.rng = RngPort.quiet ∧
  t.dp = Datapath.zero

end Sys2Proof.Machine
end

