-- ==== Sys2Proof/Certificates/Slice0/Obligations.lean ====
section
/-! DEFINITION. The statements for the provers: what the numbered rules of spec/ say the block does. -/

open Sys2Proof Sys2Proof.Machine

/-! ## Encoding -/

/-- R132: the four command words and nothing else decode to commands. -/
def Obligations.FourWordsSelectTheCommands : Prop :=
  ∀ (w : Word) (i : Instr), decode w = .ok i ↔
    (w = 0x00000001 ∧ i = .keyLoad) ∨ (w = 0x00000002 ∧ i = .keyClear) ∨
    (w = 0x00000003 ∧ i = .sealData) ∨ (w = 0x00000004 ∧ i = .openRecord)

/-- R130, R133: a word is rejected exactly when its OP is unassigned or its RSV is not zero. -/
def Obligations.IllegalWordsAreRejected : Prop :=
  ∀ w : Word, (∃ e, decode w = .error e) ↔
    (w.extractLsb' 4 28 ≠ 0 ∨ w.extractLsb' 0 4 = 0x0 ∨ 0x5 ≤ w.extractLsb' 0 4)

/-- R131, R132, R91: command words written out as the bytes the bus carries, least significant byte first. -/
def Obligations.SpecWordsDecode : Prop :=
  decodeBytes [0x01, 0x00, 0x00, 0x00] = .ok (.keyLoad, []) ∧
  decodeBytes [0x02, 0x00, 0x00, 0x00] = .ok (.keyClear, []) ∧
  decodeBytes [0x03, 0x00, 0x00, 0x00] = .ok (.sealData, []) ∧
  decodeBytes [0x04, 0x00, 0x00, 0x00] = .ok (.openRecord, []) ∧
  decodeBytes [0x00, 0x00, 0x00, 0x00] = .error .opReserved ∧
  decodeBytes [0x05, 0x00, 0x00, 0x00] = .error .opReserved ∧
  decodeBytes [0x13, 0x00, 0x00, 0x00] = .error .reservedNotZero ∧
  decodeBytes [0x04, 0x00, 0x00, 0x80] = .error .reservedNotZero

/-- R91, R132: decoding the bytes of a command gives it back, with the bytes after it untouched. -/
def Obligations.DecodeOfEncode : Prop :=
  ∀ (i : Instr) (rest : Bytes), i.wf = true ∧ decodeBytes (encodeBytes i ++ rest) = .ok (i, rest)

/-! ## The step -/

/-- R132, R154, R470: when the engine's next move is the last cycle of a running command and the command's
word decodes to `i`, the step is `exec i`, on the state with the cycle taken from the list of actions. -/
def Obligations.StepRunsTheDecodedCommand : Prop :=
  ∀ (s : State) (snap : Snapshot) (i : Instr),
    s.phase = .run snap → s.cyclesLeft ≤ 1 → decode snap.cmd = .ok i →
    (s.inputs = [] → step s = exec i s) ∧
    (∀ rest, s.inputs = .clock :: rest → step s = exec i { s with inputs := rest })

/-- R190: a running word that is no command completes with `IllegalCommand`; the key store, KSTAGE and
KEY_LEN stay, and so do all registers and bytes no completion writes. -/
def Obligations.IllegalCommandCompletes : Prop :=
  ∀ (s : State) (snap : Snapshot),
    s.phase = .run snap → s.cyclesLeft ≤ 1 → s.inputs = [] →
    (snap.word.rsv ≠ 0 ∨ snap.word.op = 0x0 ∨ 0x5 ≤ snap.word.op) →
    ∃ t, step s = .next t ∧ t.completed .illegalCommand [] 0 0 ∧ s.commandFrame t ∧
      (s.statusLastOp = snap.word.op → t.statusLastOp = snap.word.op) ∧
      t.keys = s.keys ∧ t.kstage = s.kstage ∧ t.keyLen = s.keyLen

/-- No step stops the machine. The rules (60_exceptions.md sections 1 and 3) name nothing that stops the block; that
nothing does is the model's deduction from them (log entry 10, DEDUCED). -/
def Obligations.EveryStepAnswers : Prop := ∀ s : State, ∃ t, step s = .next t

/-! ## Acceptance and the bus -/

/-- R150, R151: a CMD write while idle accepts the word, whatever it is. -/
def Obligations.CmdWriteWhileIdleAccepts : Prop :=
  ∀ (s : State) (w : Word) (rest : List Input),
    s.phase = .idle → s.inputs = .busWrite 0x0008 w 0b1111 :: rest →
    ∃ (t : State) (snap : Snapshot), step s = .next t ∧ t.phase = .run snap ∧
      snap.word.op = w.extractLsb' 0 4 ∧ snap.word.rsv = w.extractLsb' 4 28 ∧
      snap.inLen = s.inLen ∧ snap.keyLen = s.keyLen ∧ snap.strict = s.ctrlStrict ∧
      snap.kstage = s.kstage ∧ snap.keys = s.keys ∧
      snap.data.length = min s.inLen.toNat s.cfg.bufBytes ∧
      (∀ j, j < snap.data.length → snap.data.getD j 0 = ibufByte s j) ∧
      t.busy = true ∧ t.statusLastOp = w.extractLsb' 0 4 ∧ t.statusErr = .ok ∧
      t.statusRngCond = 0 ∧ t.statusRngCount = 0 ∧ t.evDone = false ∧ t.outLen = 0 ∧ t.obuf = [] ∧
      t.ctrlStrict = s.ctrlStrict ∧ t.ctrlIrqEn = s.ctrlIrqEn ∧ t.keyLen = s.keyLen ∧
      t.inLen = s.inLen ∧ t.kstage = s.kstage ∧ t.ibuf = s.ibuf ∧
      (∀ j, ibufByte t j = ibufByte s j) ∧ t.keys = s.keys ∧
      t.evCmdDropped = s.evCmdDropped ∧ t.evWrIgnored = s.evWrIgnored ∧ t.dp = s.dp ∧
      t.rng = s.rng ∧ t.cfg = s.cfg ∧ t.inputs = rest ∧ t.reply = some (.write .okay)

/-- R153: a CMD write while busy sets CMD_DROPPED and changes nothing else. -/
def Obligations.CmdWriteWhileBusyIsDropped : Prop :=
  ∀ (s : State) (w : Word) (rest : List Input),
    s.phase ≠ .idle → s.inputs = .busWrite 0x0008 w 0b1111 :: rest →
    step s = .next { s with
      evCmdDropped := true, inputs := rest, reply := some (.write .okay) }

/-- R98: while busy, a write to CTRL, KEY_LEN, IN_LEN, KSTAGE or IBUF changes none of them and sets
WR_IGNORED, answered OKAY; writes to EVENT and to read-only registers are as while idle. -/
def Obligations.InputWritesWhileBusyAreIgnored : Prop :=
  ∀ (s : State) (addr : BitVec 16) (w : Word), s.phase ≠ .idle → addr.toNat % 4 = 0 →
    ((addr = 0x0004 ∨ addr = 0x0014 ∨ addr = 0x0018 ∨ (0x40 ≤ addr.toNat ∧ addr.toNat ≤ 0x7F) ∨
        (0x8000 ≤ addr.toNat ∧ addr.toNat ≤ 0xBFFF ∧ addr.toNat - 0x8000 < s.cfg.bufBytes)) →
      busWrite s addr w 0b1111 = ({ s with evWrIgnored := true }, .okay)) ∧
    (addr = 0x0010 →
      busWrite s addr w 0b1111 =
        ({ s with
            evDone := s.evDone && !w.getLsbD 0
            evCmdDropped := s.evCmdDropped && !w.getLsbD 1
            evWrIgnored := s.evWrIgnored && !w.getLsbD 2 }, .okay)) ∧
    ((addr = 0x0000 ∨ addr = 0x000C ∨ addr = 0x001C ∨ addr = 0x0020) →
      busWrite s addr w 0b1111 = (s, .okay))

/-- R92: a misaligned access, or a write without all four strobes, has no effect and is answered SLVERR, a
read with data 0. -/
def Obligations.MisalignedAndPartialAccesses : Prop :=
  ∀ (s : State) (addr : BitVec 16) (w : Word) (strb : BitVec 4),
    (addr.extractLsb' 0 2 ≠ 0 → busRead s addr = (0, .slverr)) ∧
    (addr.extractLsb' 0 2 ≠ 0 ∨ strb ≠ 0b1111 → busWrite s addr w strb = (s, .slverr))

/-- R97: an unmapped offset reads 0 and is answered SLVERR; a write to it changes nothing; and no access
answered SLVERR changes any state. -/
def Obligations.UnmappedOffsets : Prop :=
  ∀ (s : State) (addr : BitVec 16) (w : Word) (strb : BitVec 4),
    (((0x24 ≤ addr.toNat ∧ addr.toNat ≤ 0x3F) ∨ (0x80 ≤ addr.toNat ∧ addr.toNat ≤ 0x7FFF) ∨
        (0x8000 ≤ addr.toNat ∧ addr.toNat ≤ 0xBFFF ∧ s.cfg.bufBytes ≤ addr.toNat - 0x8000) ∨
        (0xC000 ≤ addr.toNat ∧ s.cfg.bufBytes ≤ addr.toNat - 0xC000)) →
      busRead s addr = (0, .slverr) ∧ busWrite s addr w strb = (s, .slverr)) ∧
    ((busWrite s addr w strb).2 = .slverr → (busWrite s addr w strb).1 = s)

/-- What a bus access does and what it may touch (20_memory.md sections 2 and 4). A read's step answers the data and
the response of `BusRead` and changes no state of the block; a write's step is `BusWrite` and answers its response.
A write changes the sequencer, its results and its status only by being a CMD write while idle, and each other field
only at its own offset; the key store, the RNG port and the datapath never. A poll (30_encoding.md section 4) reads;
if it sees its value it is done, else it stays first in the list and the block has the step it has with no action
from outside. The list, the reply, and the cycle between two reads of a poll are the model's choice (log entries 1
and 2). -/
def Obligations.BusAccessesTouchOnlyTheirTarget : Prop :=
  (∀ (s : State) (addr : BitVec 16) (rest : List Input), s.inputs = .busRead addr :: rest →
    step s = .next { s with
      inputs := rest, reply := some (.read (busRead s addr).1 (busRead s addr).2) }) ∧
  (∀ (s : State) (addr : BitVec 16) (w : Word) (strb : BitVec 4) (rest : List Input),
    s.inputs = .busWrite addr w strb :: rest →
    step s = .next { (busWrite s addr w strb).1 with
      inputs := rest, reply := some (.write (busWrite s addr w strb).2) }) ∧
  (∀ (s : State) (addr : BitVec 16) (mask val : Word) (rest : List Input),
    s.inputs = .poll addr mask val :: rest →
    ((busRead s addr).1 &&& mask = val →
      step s = .next { s with
        inputs := rest, reply := some (.read (busRead s addr).1 (busRead s addr).2) }) ∧
    ((busRead s addr).1 &&& mask ≠ val →
      ∃ t, step { s with
          inputs := [], reply := some (.read (busRead s addr).1 (busRead s addr).2) } = .next t ∧
        step s = .next { t with inputs := s.inputs })) ∧
  (∀ (s : State) (addr : BitVec 16) (w : Word) (strb : BitVec 4) (t : State) (r : Resp),
    busWrite s addr w strb = (t, r) →
    t.keys = s.keys ∧ t.rng = s.rng ∧ t.dp = s.dp ∧ t.cfg = s.cfg ∧ t.inputs = s.inputs ∧
    t.reply = s.reply ∧
    (¬ (addr = 0x0008 ∧ s.phase = .idle) →
      t.phase = s.phase ∧ t.statusErr = s.statusErr ∧ t.statusRngCond = s.statusRngCond ∧
      t.statusRngCount = s.statusRngCount ∧ t.statusLastOp = s.statusLastOp ∧ t.outLen = s.outLen ∧
      t.obuf = s.obuf ∧ (addr ≠ 0x0010 → t.evDone = s.evDone)) ∧
    (¬ (addr = 0x0004 ∧ s.phase = .idle) → t.ctrlStrict = s.ctrlStrict ∧ t.ctrlIrqEn = s.ctrlIrqEn) ∧
    (¬ (addr = 0x0014 ∧ s.phase = .idle) → t.keyLen = s.keyLen) ∧
    (¬ (addr = 0x0018 ∧ s.phase = .idle) → t.inLen = s.inLen) ∧
    (¬ (0x40 ≤ addr.toNat ∧ addr.toNat ≤ 0x7F ∧ s.phase = .idle) → t.kstage = s.kstage) ∧
    (¬ (0x8000 ≤ addr.toNat ∧ addr.toNat ≤ 0xBFFF ∧ s.phase = .idle) →
      t.ibuf = s.ibuf ∧ ∀ j, ibufByte t j = ibufByte s j) ∧
    (addr ≠ 0x0010 →
      t.evCmdDropped = (s.evCmdDropped || decide (addr = 0x0008 ∧ s.phase ≠ .idle ∧ strb = 0b1111)) ∧
      (s.phase = .idle → t.evWrIgnored = s.evWrIgnored) ∧
      (s.evWrIgnored = true → t.evWrIgnored = true)))

/-- R33, R41: ID reads its constant and PARAM reads BUF_BYTES in bits 15:0 and 0 above, where BUF_BYTES is legal;
writes to either are ignored with OKAY. -/
def Obligations.IdAndParamRegisters : Prop :=
  (∀ (s : State) (w : Word), busRead s 0x0000 = (0x45544D31, .okay) ∧
    busWrite s 0x0000 w 0b1111 = (s, .okay) ∧ busWrite s 0x0020 w 0b1111 = (s, .okay)) ∧
  (∀ s : State, s.cfg.legal = true →
    ∃ d, busRead s 0x0020 = (d, .okay) ∧ (d.extractLsb' 0 16).toNat = s.cfg.bufBytes ∧
      d.extractLsb' 16 16 = 0)

/-- R34, R35, R38, R39, R40, R95: CTRL, KEY_LEN and IN_LEN take their bits from a write while idle and nothing else
changes; OUT_LEN is read-only; and in every state, busy or not, CTRL reads its two bits and 0 above, CMD reads 0,
and KEY_LEN, IN_LEN and OUT_LEN read their values, each with OKAY. -/
def Obligations.ControlAndLengthRegisters : Prop :=
  (∀ (s : State) (w : Word), s.phase = .idle →
    busWrite s 0x0004 w 0b1111 =
      ({ s with ctrlStrict := w.getLsbD 0, ctrlIrqEn := w.getLsbD 1 }, .okay) ∧
    busWrite s 0x0014 w 0b1111 = ({ s with keyLen := w.extractLsb' 0 16 }, .okay) ∧
    busWrite s 0x0018 w 0b1111 = ({ s with inLen := w.extractLsb' 0 16 }, .okay)) ∧
  (∀ (s : State) (w : Word), busWrite s 0x001C w 0b1111 = (s, .okay)) ∧
  (∀ s : State,
    (busRead s 0x0004).1.getLsbD 0 = s.ctrlStrict ∧ (busRead s 0x0004).1.getLsbD 1 = s.ctrlIrqEn ∧
    (busRead s 0x0004).1.extractLsb' 2 30 = 0 ∧ busRead s 0x0008 = (0, .okay) ∧
    (busRead s 0x0014).1.toNat = s.keyLen.toNat ∧ (busRead s 0x0018).1.toNat = s.inLen.toNat ∧
    (busRead s 0x001C).1.toNat = s.outLen.toNat ∧
    (busRead s 0x0004).2 = .okay ∧ (busRead s 0x0014).2 = .okay ∧ (busRead s 0x0018).2 = .okay ∧
    (busRead s 0x001C).2 = .okay)

/-- R52: the reserved bits of each register read 0 on the bus, and a write with reserved bits set does what the same
write does without them; a nonzero CMD.RSV makes the command illegal. -/
def Obligations.ReservedBitsReadZeroAndIgnoreWrites : Prop :=
  (∀ s : State, (busRead s 0x0004).1.extractLsb' 2 30 = 0 ∧ (busRead s 0x000C).1.extractLsb' 2 2 = 0 ∧
    (busRead s 0x000C).1.extractLsb' 15 1 = 0 ∧ (busRead s 0x000C).1.extractLsb' 20 12 = 0 ∧
    (busRead s 0x0010).1.extractLsb' 3 29 = 0 ∧
    (busRead s 0x0014).1.extractLsb' 16 16 = 0 ∧ (busRead s 0x0018).1.extractLsb' 16 16 = 0 ∧
    (busRead s 0x001C).1.extractLsb' 16 16 = 0) ∧
  (∀ (s : State) (v w : Word),
    (v.extractLsb' 0 2 = w.extractLsb' 0 2 →
      busWrite s 0x0004 v 0b1111 = busWrite s 0x0004 w 0b1111) ∧
    (v.extractLsb' 0 3 = w.extractLsb' 0 3 →
      busWrite s 0x0010 v 0b1111 = busWrite s 0x0010 w 0b1111) ∧
    (v.extractLsb' 0 16 = w.extractLsb' 0 16 →
      busWrite s 0x0014 v 0b1111 = busWrite s 0x0014 w 0b1111 ∧
      busWrite s 0x0018 v 0b1111 = busWrite s 0x0018 w 0b1111)) ∧
  (∀ w : Word, w.extractLsb' 4 28 ≠ 0 → ∃ e, decode w = .error e)

/-- R36, R47, R401: the fields of STATUS stand at their bits, ERR by its numeric code, and writes to STATUS
are ignored with OKAY. -/
def Obligations.StatusWordFields : Prop :=
  (∀ s : State, busRead s 0x000C = (statusWord s, .okay) ∧
    ((statusWord s).getLsbD 0 = true ↔ s.phase ≠ .idle) ∧
    (statusWord s).getLsbD 1 = s.keys.valid ∧
    (statusWord s).extractLsb' 4 4 = errCode s.statusErr ∧
    (statusWord s).extractLsb' 8 2 = s.statusRngCond ∧
    ((statusWord s).extractLsb' 10 5).toNat = s.statusRngCount.val ∧
    (statusWord s).extractLsb' 16 4 = s.statusLastOp ∧
    (∀ w, busWrite s 0x000C w 0b1111 = (s, .okay))) ∧
  [errCode .ok, errCode .invalidKeyLength, errCode .randomSourceExhausted,
    errCode .ciphertextTooShort, errCode .authenticationFailed, errCode .invalidPadding,
    errCode .keyNotLoaded, errCode .illegalCommand, errCode .lengthOutOfRange] =
    [0, 1, 2, 3, 4, 5, 6, 7, 8]

/-- R37: an EVENT write clears the flags whose bits are 1 and leaves the others, busy or not, and changes
nothing else; EVENT reads the three flags. -/
def Obligations.EventWriteOneToClear : Prop :=
  ∀ (s : State) (w : Word), ∃ t, busWrite s 0x0010 w 0b1111 = (t, .okay) ∧
    t = { s with
      evDone := t.evDone, evCmdDropped := t.evCmdDropped, evWrIgnored := t.evWrIgnored } ∧
    t.evDone = (if w.getLsbD 0 then false else s.evDone) ∧
    t.evCmdDropped = (if w.getLsbD 1 then false else s.evCmdDropped) ∧
    t.evWrIgnored = (if w.getLsbD 2 then false else s.evWrIgnored) ∧
    (busRead s 0x0010).2 = .okay ∧ (busRead s 0x0010).1.getLsbD 0 = s.evDone ∧
    (busRead s 0x0010).1.getLsbD 1 = s.evCmdDropped ∧ (busRead s 0x0010).1.getLsbD 2 = s.evWrIgnored

/-- R42, R91: a word written to KSTAGE while idle puts its four bytes there, lowest first, and changes nothing
else; every read of the window is 0 with OKAY. -/
def Obligations.KstageWindow : Prop :=
  ∀ (s : State) (k : Nat) (w : Word), k < 16 →
    busRead s (BitVec.ofNat 16 (0x40 + 4 * k)) = (0, .okay) ∧
    (s.phase = .idle → ∃ t, busWrite s (BitVec.ofNat 16 (0x40 + 4 * k)) w 0b1111 = (t, .okay) ∧
      t = { s with kstage := t.kstage } ∧
      ∀ j (h : j < 64), t.kstage[j] =
        if j / 4 = k then w.extractLsb' (8 * (j % 4)) 8 else s.kstage[j])

/-- R43, R91, R95: in every state a word read from IBUF has the four bytes of its offsets, lowest first, with OKAY; a
word written to IBUF while idle puts its four bytes there, lowest first, leaves every other byte and everything else
alone, and reads back. -/
def Obligations.IbufWindow : Prop :=
  ∀ (s : State) (k : Nat), s.cfg.legal = true → 4 * k < s.cfg.bufBytes →
    (∃ d, busRead s (BitVec.ofNat 16 (0x8000 + 4 * k)) = (d, .okay) ∧
      ∀ i, i < 4 → d.extractLsb' (8 * i) 8 = ibufByte s (4 * k + i)) ∧
    (∀ w, s.phase = .idle →
      ∃ t, busWrite s (BitVec.ofNat 16 (0x8000 + 4 * k)) w 0b1111 = (t, .okay) ∧
        t = { s with ibuf := t.ibuf } ∧
        (∀ j, ibufByte t j = if j / 4 = k then w.extractLsb' (8 * (j % 4)) 8 else ibufByte s j) ∧
        busRead t (BitVec.ofNat 16 (0x8000 + 4 * k)) = (w, .okay))

/-- R44, R95: a word read from OBUF has `obuf[j]` where `j < OUT_LEN` and 0 elsewhere; a write to OBUF is
ignored with OKAY. -/
def Obligations.ObufWindow : Prop :=
  ∀ (s : State) (k : Nat), s.cfg.legal = true → 4 * k < s.cfg.bufBytes →
    (∃ d, busRead s (BitVec.ofNat 16 (0xC000 + 4 * k)) = (d, .okay) ∧
      ∀ i, i < 4 → d.extractLsb' (8 * i) 8 =
        if 4 * k + i < s.outLen.toNat then s.obuf.getD (4 * k + i) 0 else 0) ∧
    (∀ w, busWrite s (BitVec.ofNat 16 (0xC000 + 4 * k)) w 0b1111 = (s, .okay))

/-- R42, R45, R106: no bus read depends on the keys, KSTAGE, the snapshot, the RNG port or the datapath. -/
def Obligations.NoBusReadShowsAKey : Prop :=
  ∀ (s t : State) (addr : BitVec 16), s.busAgree t → busRead s addr = busRead t addr

/-- R420: irq is IRQ_EN and DONE; a completion raises it when enabled; clearing DONE, clearing IRQ_EN, the next
acceptance and reset lower it. -/
def Obligations.IrqFollowsDone : Prop :=
  (∀ s : State, s.irq = true ↔ s.ctrlIrqEn = true ∧ s.evDone = true) ∧
  (∀ (s : State) (e : Err) (out : Bytes) (n : Fin 17) (c : BitVec 2),
    (complete e out s n c).irq = s.ctrlIrqEn) ∧
  (∀ (s : State) (w : Word), w.getLsbD 0 = true → (busWrite s 0x0010 w 0b1111).1.irq = false) ∧
  (∀ (s : State) (w : Word), s.phase = .idle → w.getLsbD 1 = false →
    (busWrite s 0x0004 w 0b1111).1.irq = false) ∧
  (∀ (s : State) (w : Word), s.phase = .idle → (busWrite s 0x0008 w 0b1111).1.irq = false) ∧
  (∀ s : State, (assertReset s).irq = false)

/-! ## KEY_LOAD and KEY_CLEAR -/

/-- R160: KEY_LOAD wipes KSTAGE and KEY_LEN always; with KEY_LEN = 64 it loads the two halves of KSTAGE and
completes with OK, else it removes the key and completes with InvalidKeyLength; nothing else changes. -/
def Obligations.KeyLoadCompletes : Prop :=
  ∀ (s : State) (snap : Snapshot), s.phase = .run snap →
    ∃ t, exec .keyLoad s = .next t ∧
      t.kstage = Vector.replicate 64 0 ∧ t.keyLen = 0 ∧ s.commandFrame t ∧
      (snap.keyLen = 64 →
        t.keys.encKey.toList = snap.kstage.toList.take 32 ∧
        t.keys.macKey.toList = snap.kstage.toList.drop 32 ∧ t.keys.valid = true ∧
        t.completed .ok [] 0 0) ∧
      (snap.keyLen ≠ 64 →
        t.keys.encKey.toList = List.replicate 32 0 ∧ t.keys.macKey.toList = List.replicate 32 0 ∧
        t.keys.valid = false ∧ t.completed .invalidKeyLength [] 0 0)

/-- R165: KEY_CLEAR empties the key store, wipes KSTAGE, keeps KEY_LEN and completes with OK; nothing else
changes. -/
def Obligations.KeyClearCompletes : Prop :=
  ∀ (s : State) (snap : Snapshot), s.phase = .run snap →
    ∃ t, exec .keyClear s = .next t ∧
      t.keys.encKey.toList = List.replicate 32 0 ∧ t.keys.macKey.toList = List.replicate 32 0 ∧
      t.keys.valid = false ∧ t.kstage = Vector.replicate 64 0 ∧ t.keyLen = s.keyLen ∧
      s.commandFrame t ∧ t.completed .ok [] 0 0

/-- R46: a step that changes the key store is a reset or an engine step of KEY_LOAD or KEY_CLEAR, a step that
sets key_valid is one of KEY_LOAD with KEY_LEN = 64, and with key_valid = 0 both keys are zero: at reset, and after
every step from a state where it holds. -/
def Obligations.OnlyKeyCommandsChangeTheKeyStore : Prop :=
  (∀ (s t : State), step s = .next t →
    (t.keys ≠ s.keys →
      (∃ rest, s.inputs = .reset :: rest) ∨
      ∃ snap, s.phase = .run snap ∧
        (decode snap.cmd = .ok .keyLoad ∨ decode snap.cmd = .ok .keyClear)) ∧
    (s.keys.valid = false → t.keys.valid = true →
      ∃ snap, s.phase = .run snap ∧ decode snap.cmd = .ok .keyLoad ∧ snap.keyLen = 64) ∧
    (s.keysOk → t.keysOk)) ∧
  State.reset.keysOk

/-! ## SEAL -/

/-- R170: everything an engine step of SEAL does, for every running SEAL: its two checks, then its RNG request while
there is no answer, then, with the answer, the short read or the record; key store, KSTAGE and KEY_LEN stay. -/
def Obligations.SealFollowsItsRule : Prop :=
  ∀ (s : State) (snap : Snapshot), s.phase = .run snap →
    ∃ t, exec .sealData s = .next t ∧ s.commandFrame t ∧ t.keys = s.keys ∧ t.kstage = s.kstage ∧
      t.keyLen = s.keyLen ∧
      (if snap.keys.valid = false then t.completed .keyNotLoaded [] 0 0
      else if s.cfg.bufBytes < snap.inLen.toNat + 49 then t.completed .lengthOutOfRange [] 0 0
      else
        match s.rng.answer with
        | none => t = { s with phase := .rngWait snap, rng := ⟨true, none⟩ }
        | some a =>
          if a.count.val < 16 then t.completed .randomSourceExhausted [] a.count a.cond
          else
            let iv := a.bytes.toList
            let c := cbcE snap.keys.encKey.toList iv (pad (snap.data.take snap.inLen.toNat))
            t.completed .ok (iv ++ c ++ (hmac512 snap.keys.macKey.toList (iv ++ c)).take 32) 16 0)

/-- R170, R261, R303: a SEAL whose answer is 16 bytes completes with the record
`IV || CBC_E(enc_key, IV, PAD(P)) || HMAC512(mac_key, IV || C)[0:32]`; key store, KSTAGE and KEY_LEN stay. -/
def Obligations.SealCompletesWithTheRecord : Prop :=
  ∀ (s : State) (snap : Snapshot) (a : RngAnswer), s.phase = .run snap → snap.keys.valid = true →
    snap.inLen.toNat + 49 ≤ s.cfg.bufBytes → s.rng.answer = some a → a.count = 16 →
    ∃ t, exec .sealData s = .next t ∧
      (let iv := a.bytes.toList
       let c := cbcE snap.keys.encKey.toList iv (pad (snap.data.take snap.inLen.toNat))
       t.completed .ok (iv ++ c ++ (hmac512 snap.keys.macKey.toList (iv ++ c)).take 32) 16 0) ∧
      s.commandFrame t ∧ t.keys = s.keys ∧ t.kstage = s.kstage ∧ t.keyLen = s.keyLen

/-- R171: a successful SEAL's OUT_LEN is `16 + pad16(L) + 32`, at least 64 and at most BUF_BYTES. -/
def Obligations.SealOutputLength : Prop :=
  ∀ (s t : State) (snap : Snapshot), s.phase = .run snap → s.cfg.legal = true →
    snap.data.length = min snap.inLen.toNat s.cfg.bufBytes →
    exec .sealData s = .next t → t.phase = .idle → t.statusErr = .ok →
    t.outLen.toNat = 16 + pad16 snap.inLen.toNat + 32 ∧ t.obuf.length = t.outLen.toNat ∧
      64 ≤ t.outLen.toNat ∧ t.outLen.toNat ≤ s.cfg.bufBytes

/-- R430, R49: the answer to an outstanding request is taken and the SEAL goes on. R450 says that an answer after a
reset is discarded; that any other answer with no request outstanding (a second one, an unasked one) is discarded too
is the model's deduction, and the latch of the answer is its own field (log entry 15). -/
def Obligations.RngAnswerIsTakenOrDiscarded : Prop :=
  ∀ (s : State) (a : RngAnswer) (rest : List Input), s.inputs = .rngAnswer a :: rest →
    (∀ snap, s.phase = .rngWait snap → s.rng.pending = true →
      step s = .next { s with phase := .run snap, rng := ⟨false, some a⟩, inputs := rest }) ∧
    ((∀ snap, s.phase ≠ .rngWait snap) → step s = .next { s with inputs := rest })

/-- R154: with no answer from the RNG port, the block stays as it is for any number of steps. -/
def Obligations.UnansweredSealWaitsForever : Prop :=
  ∀ (s : State) (snap : Snapshot) (n : Nat), s.phase = .rngWait snap → s.inputs = [] →
    core.run n s = .next s

/-! ## OPEN -/

/-- R180: an OPEN whose record passes every check completes with the unpadded plaintext; key store, KSTAGE and
KEY_LEN stay. -/
def Obligations.OpenCompletesWithThePlaintext : Prop :=
  ∀ (s : State) (snap : Snapshot), s.phase = .run snap → snap.keys.valid = true →
    snap.inLen.toNat ≤ s.cfg.bufBytes → 48 ≤ snap.inLen.toNat →
    (let r := snap.data.take snap.inLen.toNat
     let iv := r.take 16
     let c := (r.drop 16).take (r.length - 48)
     let pp := cbcD snap.keys.encKey.toList iv c
     ctEq (r.drop (r.length - 32)) ((hmac512 snap.keys.macKey.toList (iv ++ c)).take 32) = true →
     0 < c.length → c.length % 16 = 0 → padOk pp = true →
     ∃ t, exec .openRecord s = .next t ∧ t.completed .ok (unpad pp) 0 0 ∧
       s.commandFrame t ∧ t.keys = s.keys ∧ t.kstage = s.kstage ∧ t.keyLen = s.keyLen)

/-- R180: everything the completion of OPEN does, for every running OPEN: the checks in order, the tag before any
decryption, the padding class by STRICT, and the plaintext; key store, KSTAGE and KEY_LEN stay. -/
def Obligations.OpenFollowsItsRule : Prop :=
  ∀ (s : State) (snap : Snapshot), s.phase = .run snap →
    ∃ t, exec .openRecord s = .next t ∧ s.commandFrame t ∧ t.keys = s.keys ∧ t.kstage = s.kstage ∧
      t.keyLen = s.keyLen ∧
      (let r := snap.data.take snap.inLen.toNat
       let iv := r.take 16
       let c := (r.drop 16).take (r.length - 48)
       let padErr : Err := if snap.strict then .authenticationFailed else .invalidPadding
       if snap.keys.valid = false then t.completed .keyNotLoaded [] 0 0
       else if s.cfg.bufBytes < snap.inLen.toNat then t.completed .lengthOutOfRange [] 0 0
       else if snap.inLen.toNat < 48 then t.completed .ciphertextTooShort [] 0 0
       else if ctEq (r.drop (r.length - 32)) ((hmac512 snap.keys.macKey.toList (iv ++ c)).take 32) = false
         then t.completed .authenticationFailed [] 0 0
       else if c.length = 0 ∨ c.length % 16 ≠ 0 then t.completed padErr [] 0 0
       else if padOk (cbcD snap.keys.encKey.toList iv c) = false then t.completed padErr [] 0 0
       else t.completed .ok (unpad (cbcD snap.keys.encKey.toList iv c)) 0 0)

/-- R405: of several errors that apply to one command, the code reported is the first in the order of the rule. -/
def Obligations.FirstFailingCheckIsReported : Prop :=
  ∀ (s t : State) (snap : Snapshot), s.phase = .run snap → runCommand snap s = .next t → t.phase = .idle →
    let r := snap.input
    let c := recordCiphertext r
    let padErr : Err := if snap.strict then .authenticationFailed else .invalidPadding
    ((∃ e, decode snap.cmd = .error e) → t.statusErr = .illegalCommand) ∧
    (decode snap.cmd = .ok .keyLoad →
      t.statusErr = if snap.keyLen ≠ 64 then .invalidKeyLength else .ok) ∧
    (decode snap.cmd = .ok .keyClear → t.statusErr = .ok) ∧
    (decode snap.cmd = .ok .sealData →
      if snap.keys.valid = false then t.statusErr = .keyNotLoaded
      else if s.cfg.bufBytes < snap.inLen.toNat + 49 then t.statusErr = .lengthOutOfRange
      else ∃ a, s.rng.answer = some a ∧
        t.statusErr = if a.count ≠ 16 then .randomSourceExhausted else .ok) ∧
    (decode snap.cmd = .ok .openRecord →
      if snap.keys.valid = false then t.statusErr = .keyNotLoaded
      else if s.cfg.bufBytes < snap.inLen.toNat then t.statusErr = .lengthOutOfRange
      else if snap.inLen.toNat < 48 then t.statusErr = .ciphertextTooShort
      else if ctEq (recordTag r) (expectedTag snap) = false then t.statusErr = .authenticationFailed
      else if c.length = 0 ∨ c.length % 16 ≠ 0 then t.statusErr = padErr
      else if padOk (cbcD snap.encKey (recordIv r) c) = false then t.statusErr = padErr
      else t.statusErr = .ok)

/-- R181: InvalidPadding is reported only for a record whose tag matched, and never with STRICT = 1; a record whose
tag did not match never decrypts to an output. -/
def Obligations.NoPaddingErrorBeforeAuthentication : Prop :=
  ∀ (s t : State) (snap : Snapshot), s.phase = .run snap → exec .openRecord s = .next t →
    (t.statusErr = .invalidPadding →
      snap.strict = false ∧ ctEq (recordTag snap.input) (expectedTag snap) = true) ∧
    (t.statusErr = .ok → ctEq (recordTag snap.input) (expectedTag snap) = true) ∧
    (ctEq (recordTag snap.input) (expectedTag snap) = false → t.obuf = [])

/-- R182, R407: two OPENs under the same key, STRICT and length, whose tags do not match, give the same code, the
same output (none) and the same latency; with STRICT = 1 a padding-class failure gives that code too. -/
def Obligations.TamperedRecordsLookAlike : Prop :=
  ∀ (s t : State) (p q : Snapshot), s.phase = .run p → t.phase = .run q → s.cfg = t.cfg →
    decode p.cmd = .ok .openRecord → decode q.cmd = .ok .openRecord →
    p.keys = q.keys → p.keys.valid = true → p.strict = q.strict → p.inLen = q.inLen →
    48 ≤ p.inLen.toNat → p.inLen.toNat ≤ s.cfg.bufBytes →
    ctEq (recordTag p.input) (expectedTag p) = false →
    (ctEq (recordTag q.input) (expectedTag q) = false ∨
      (q.strict = true ∧ ¬ ∃ u, exec .openRecord t = .next u ∧ u.statusErr = .ok)) →
    (∃ u v, exec .openRecord s = .next u ∧ exec .openRecord t = .next v ∧
      u.statusErr = .authenticationFailed ∧ v.statusErr = .authenticationFailed ∧
      u.obuf = [] ∧ v.obuf = [] ∧ u.outLen = 0 ∧ v.outLen = 0) ∧
    commandLatency s.cfg p = commandLatency t.cfg q

/-- R183: a record that SEAL produced, given to OPEN under the same key and either STRICT value, opens to the
plaintext. -/
def Obligations.OpenOfSealIsThePlaintext : Prop :=
  ∀ (s t : State) (snap : Snapshot), s.phase = .run snap → s.cfg.legal = true →
    snap.data.length = min snap.inLen.toNat s.cfg.bufBytes →
    exec .sealData s = .next t → t.phase = .idle → t.statusErr = .ok →
    ∀ (u : State) (snap' : Snapshot), u.phase = .run snap' → u.cfg = s.cfg →
      snap'.keys = snap.keys → snap'.data = t.obuf → snap'.inLen = t.outLen →
      ∃ v, exec .openRecord u = .next v ∧ v.statusErr = .ok ∧ v.obuf = snap.data ∧
        v.outLen = snap.inLen

/-! ## Commands as a whole -/

/-- R155: the result of a command, illegal or not, is a function of its snapshot, with the key store in it, and, for
SEAL, of the RNG port's answer. -/
def Obligations.CommandResultsAreDetermined : Prop :=
  ∀ (s t s' t' : State) (snap : Snapshot), s.phase = .run snap → t.phase = .run snap →
    s.cfg.bufBytes = t.cfg.bufBytes → (decode snap.cmd = .ok .sealData → s.rng.answer = t.rng.answer) →
    runCommand snap s = .next s' → runCommand snap t = .next t' →
    s'.phase = t'.phase ∧ s'.rng = t'.rng ∧
    (s'.phase = .idle →
      s'.statusErr = t'.statusErr ∧ s'.obuf = t'.obuf ∧ s'.outLen = t'.outLen ∧
      s'.statusRngCount = t'.statusRngCount ∧ s'.statusRngCond = t'.statusRngCond) ∧
    ((decode snap.cmd = .ok .keyLoad ∨ decode snap.cmd = .ok .keyClear) → s'.keys = t'.keys) ∧
    (¬ (decode snap.cmd = .ok .keyLoad ∨ decode snap.cmd = .ok .keyClear) →
      s'.keys = s.keys ∧ t'.keys = t.keys)

/-- R152, R154: the last cycle of a running command either asks the RNG port, which only a SEAL past its checks does,
or is one whole completion: idle, DONE set, OUT_LEN the length of the output, no output with an error, the RNG fields
0 but for SEAL's, the datapath cleared and the RNG port quiet. R470 gives only the sum of LAT_SEAL and the port's
response time: that a SEAL asks in the last counted cycle of its latency is the model's deduction (log entry 6), and
the count of cycles is the model's own (log entry 5). -/
def Obligations.RunningCommandAsksOrCompletes : Prop :=
  ∀ (s : State) (snap : Snapshot), s.phase = .run snap → s.cyclesLeft ≤ 1 → s.inputs = [] →
    ∃ t, step s = .next t ∧ s.commandFrame t ∧
      ((snap.asksRng s.cfg ∧ s.rng.answer = none ∧
          t = { s with phase := .rngWait snap, rng := ⟨true, none⟩ }) ∨
        (t.phase = .idle ∧ t.evDone = true ∧ t.outLen = BitVec.ofNat 16 t.obuf.length ∧
          (t.statusErr ≠ .ok → t.obuf = []) ∧
          (t.statusErr ≠ .randomSourceExhausted → t.statusRngCond = 0) ∧
          (decode snap.cmd ≠ .ok .sealData → t.statusRngCount = 0) ∧
          t.dp = Datapath.zero ∧ t.rng = RngPort.quiet))

/-- R100, R410: while a command runs and does not complete, no step changes OBUF, OUT_LEN, ERR, the RNG fields, the
key store, KSTAGE or KEY_LEN, whatever the host does, and none sets DONE. That the datapath registers stay as well is
the model's choice (log entry 7): the hardware's hold partial results meanwhile, which nothing can observe. -/
def Obligations.NoEffectBeforeCompletion : Prop :=
  ∀ s t : State, step s = .next t → s.phase ≠ .idle → t.phase ≠ .idle →
    t.obuf = s.obuf ∧ t.outLen = s.outLen ∧ t.statusErr = s.statusErr ∧
    t.statusRngCond = s.statusRngCond ∧ t.statusRngCount = s.statusRngCount ∧
    t.statusLastOp = s.statusLastOp ∧ t.keys = s.keys ∧ t.kstage = s.kstage ∧ t.keyLen = s.keyLen ∧
    t.inLen = s.inLen ∧ t.ibuf = s.ibuf ∧ t.ctrlStrict = s.ctrlStrict ∧ t.ctrlIrqEn = s.ctrlIrqEn ∧
    t.dp = s.dp ∧ (t.evDone = true → s.evDone = true)

/-- R47, R154: the phase leaves Idle only by a CMD write with all strobes, and returns to Idle only by a reset or by a
completion, which sets DONE and starts from Run: a SEAL that waits for the RNG port goes to Idle only by a reset. -/
def Obligations.PhaseChangesOnlyByCommands : Prop :=
  ∀ (s t : State), step s = .next t →
    (s.phase = .idle → t.phase ≠ .idle →
      ∃ w rest, s.inputs = .busWrite 0x0008 w 0b1111 :: rest) ∧
    (s.phase ≠ .idle → t.phase = .idle →
      (∃ rest, s.inputs = .reset :: rest) ∨ ((∃ snap, s.phase = .run snap) ∧ t.evDone = true))

/-- R472: the block never writes IBUF and never changes CTRL or IN_LEN; only the host's writes to them, while idle,
and a reset do. -/
def Obligations.BlockNeverChangesItsInputs : Prop :=
  ∀ (s t : State), step s = .next t →
    (∀ addr w strb rest, s.inputs ≠ .busWrite addr w strb :: rest) →
    (∀ rest, s.inputs ≠ .reset :: rest) →
    t.ctrlStrict = s.ctrlStrict ∧ t.ctrlIrqEn = s.ctrlIrqEn ∧ t.inLen = s.inLen ∧
      t.ibuf = s.ibuf ∧ ∀ j, ibufByte t j = ibufByte s j

/-- R99: while busy, STATUS reads BUSY = 1 and ERR = 0, OUT_LEN and every OBUF word read 0, and CTRL, KEY_LEN and
IN_LEN and IBUF read the values they hold. -/
def Obligations.BusyReads : Prop :=
  ∀ s : State, s.Inv → s.phase ≠ .idle →
    (busRead s 0x000C).1.getLsbD 0 = true ∧ (busRead s 0x000C).1.extractLsb' 4 4 = 0 ∧
    busRead s 0x001C = (0, .okay) ∧
    (∀ k, 4 * k < s.cfg.bufBytes → busRead s (BitVec.ofNat 16 (0xC000 + 4 * k)) = (0, .okay)) ∧
    busRead s 0x0004 = (ctrlWord s, .okay) ∧
    (busRead s 0x0014).1.toNat = s.keyLen.toNat ∧ (busRead s 0x0018).1.toNat = s.inLen.toNat ∧
    (∀ k i, 4 * k < s.cfg.bufBytes → i < 4 →
      (busRead s (BitVec.ofNat 16 (0x8000 + 4 * k))).1.extractLsb' (8 * i) 8 = ibufByte s (4 * k + i))

/-- R154, R470: a running command, illegal or not, with `k + 1` cycles left and nothing coming from outside is still
running after each of the first `k` cycles, and takes its own step in the next one. The count of cycles is the
model's own (log entry 5). -/
def Obligations.CommandRunsAfterItsLatency : Prop :=
  ∀ (s : State) (snap : Snapshot) (k : Nat),
    s.phase = .run snap → s.inputs = [] → s.cyclesLeft = k + 1 →
    (∀ j, j ≤ k → ∃ t, core.run j s = .next t ∧ t.phase = .run snap ∧ t.evDone = s.evDone) ∧
    (∀ i, decode snap.cmd = .ok i → core.run (k + 1) s = exec i { s with cyclesLeft := 1 }) ∧
    (∀ e, decode snap.cmd = .error e → core.run (k + 1) s = execIllegal { s with cyclesLeft := 1 })

/-- R470, R471: an accepted command has its latency before it, at least 1; the latency depends only on the command
word, KEY_VALID, IN_LEN and whether KEY_LEN is 64, never on a key, a plaintext or a record; an OPEN past its length
checks and a SEAL that asks the RNG have one that depends on IN_LEN alone, an illegal word one that depends on its OP
alone. -/
def Obligations.LatencyDependsOnNothingSecret : Prop :=
  (∀ (s : State) (w : Word), ∃ snap, (accept w s).phase = .run snap ∧
    (accept w s).cyclesLeft = commandLatency s.cfg snap ∧ 1 ≤ (accept w s).cyclesLeft) ∧
  (∀ (cfg : Config) (p q : Snapshot), p.word = q.word → p.keys.valid = q.keys.valid → p.inLen = q.inLen →
    (p.keyLen = 64 ↔ q.keyLen = 64) → commandLatency cfg p = commandLatency cfg q) ∧
  (∀ (cfg : Config) (p q : Snapshot), decode p.cmd = .ok .openRecord → decode q.cmd = .ok .openRecord →
    p.keys.valid = true → q.keys.valid = true → p.inLen = q.inLen → 48 ≤ p.inLen.toNat →
    p.inLen.toNat ≤ cfg.bufBytes → commandLatency cfg p = commandLatency cfg q) ∧
  (∀ (cfg : Config) (p q : Snapshot), decode p.cmd = .ok .sealData → decode q.cmd = .ok .sealData →
    p.keys.valid = true → q.keys.valid = true → p.inLen = q.inLen →
    p.inLen.toNat + 49 ≤ cfg.bufBytes → commandLatency cfg p = commandLatency cfg q) ∧
  (∀ (cfg : Config) (p q : Snapshot), (∃ e, decode p.cmd = .error e) → (∃ e, decode q.cmd = .error e) →
    p.word.op = q.word.op → commandLatency cfg p = commandLatency cfg q)

/-! ## Reset and the invariant -/

/-- R450: the reset input puts every piece of state to its reset value, in any phase and at any time, IBUF to free
bytes, and an RNG answer that comes right after it is discarded. -/
def Obligations.ResetPutsEveryFieldToItsValue : Prop :=
  ∀ (s : State) (rest : List Input), s.inputs = .reset :: rest →
    ∃ t, step s = .next t ∧ t.ctrlStrict = true ∧ t.ctrlIrqEn = false ∧ t.phase = .idle ∧
      t.busy = false ∧ t.keys.valid = false ∧ t.keys.encKey.toList = List.replicate 32 0 ∧
      t.keys.macKey.toList = List.replicate 32 0 ∧ t.statusErr = .ok ∧ t.statusRngCond = 0 ∧
      t.statusRngCount = 0 ∧ t.statusLastOp = 0 ∧ t.evDone = false ∧ t.evCmdDropped = false ∧
      t.evWrIgnored = false ∧ t.keyLen = 0 ∧ t.inLen = 0 ∧ t.outLen = 0 ∧ t.obuf = [] ∧
      t.kstage.toList = List.replicate 64 0 ∧ t.dp = Datapath.zero ∧ t.rng.pending = false ∧
      t.irq = false ∧ busRead t 0x0000 = (0x45544D31, .okay) ∧
      busRead t 0x0020 = (BitVec.ofNat 32 s.cfg.bufBytes, .okay) ∧ t.inputs = rest ∧
      (∀ j, ibufByte t j = Config.ibufReset (s.resets + 1) j) ∧
      (∀ a rest', rest = .rngAnswer a :: rest' → step t = .next { t with inputs := rest' })

/-- The reset state meets the invariant of the block. -/
def Obligations.ResetMeetsTheInvariant : Prop := State.reset.Inv

/-- R46, R48, R49, R99, R402: every step keeps the invariant of the block: legal parameters, IBUF in its canonical
form, output within OBUF and none after an error, no key without key_valid, the snapshot of a running command equal
to the live values, a request pending exactly in RngWait. -/
def Obligations.EveryStepKeepsTheInvariant : Prop :=
  ∀ s t : State, s.Inv → step s = .next t → t.Inv

/-! ## The cryptographic units -/

/-- R202 to R205: the product of a nonzero byte and its inverse is 1, the S-box is the affine map of the inverse, and
the inverse S-box undoes it. -/
def Obligations.SboxIsTheAffineInverse : Prop :=
  ∀ a : Byte, invSbox (sbox a) = a ∧ sbox (invSbox a) = a ∧
    ∃ b, ((a ≠ 0 ∧ gfMul a b = 1) ∨ (a = 0 ∧ b = 0)) ∧ sbox a = sboxAffine b

/-- R202, R209, R210: the products by constants are the field's products, and InvMixColumns undoes MixColumns. -/
def Obligations.MixColumnsInverse : Prop :=
  (∀ a : Byte, xtime a = gfMul a 0x02 ∧ mul03 a = gfMul a 0x03 ∧ mul09 a = gfMul a 0x09 ∧
    mul0b a = gfMul a 0x0b ∧ mul0d a = gfMul a 0x0d ∧ mul0e a = gfMul a 0x0e) ∧
  (∀ b : Block, invMixColumns (mixColumns b) = b ∧ mixColumns (invMixColumns b) = b)

/-- R207: ShiftRows and InvShiftRows move the bytes of a block, in block-byte terms. -/
def Obligations.RowShiftsMoveBytes : Prop :=
  ∀ b : Bytes, b.length = 16 → ∀ r c, r < 4 → c < 4 →
    (shiftRows (Block.load b)).unload.getD (r + 4 * c) 0 = b.getD (r + 4 * ((c + r) % 4)) 0 ∧
    (invShiftRows (Block.load b)).unload.getD (r + 4 * c) 0 = b.getD (r + 4 * ((c + 4 - r) % 4)) 0

/-- R208: key expansion gives 60 words that start with the key's and follow the recurrence, and round key `r` is the
words `4r` to `4r + 3`. -/
def Obligations.KeyScheduleFollowsItsRecurrence : Prop :=
  (∀ k : Bytes, k.length = 32 →
    let w := keyExpansion k
    let at_ (i : Nat) : Col := w.getD i ⟨0, 0, 0, 0⟩
    w.length = 60 ∧ (∀ i, i < 8 → (at_ i).bytes = (k.drop (4 * i)).take 4) ∧
    (∀ i, 8 ≤ i → i < 60 →
      at_ i = (at_ (i - 8)).xor
        (if i % 8 = 0 then (subWord (rotWord (at_ (i - 1)))).xor (rcon (i / 8))
         else if i % 8 = 4 then subWord (at_ (i - 1))
         else at_ (i - 1))) ∧
    (∀ r, r < 15 → (roundKey w r).unload =
      (at_ (4 * r)).bytes ++ (at_ (4 * r + 1)).bytes ++ (at_ (4 * r + 2)).bytes ++ (at_ (4 * r + 3)).bytes)) ∧
  (∀ a b c d : Byte, rotWord ⟨a, b, c, d⟩ = ⟨b, c, d, a⟩ ∧ subWord ⟨a, b, c, d⟩ = ⟨sbox a, sbox b, sbox c, sbox d⟩) ∧
  [rcon 1, rcon 2, rcon 3, rcon 4, rcon 5, rcon 6, rcon 7].map Col.bytes =
    [[0x01, 0, 0, 0], [0x02, 0, 0, 0], [0x04, 0, 0, 0], [0x08, 0, 0, 0], [0x10, 0, 0, 0], [0x20, 0, 0, 0],
      [0x40, 0, 0, 0]]

/-- R212, R213: the inverse cipher undoes the cipher and the cipher undoes it, for every key and every 16-byte
block. -/
def Obligations.AesDecryptInvertsEncrypt : Prop :=
  ∀ k b : Bytes, b.length = 16 → aesD k (aesE k b) = b ∧ aesE k (aesD k b) = b

/-- R301, R302: CBC decryption undoes CBC encryption of whole blocks, both keep the length, and flipping bits of the
IV flips the same bits of the first block and nothing else. -/
def Obligations.CbcDecryptInvertsEncrypt : Prop :=
  ∀ k iv p : Bytes, iv.length = 16 → p.length % 16 = 0 →
    cbcD k iv (cbcE k iv p) = p ∧ (cbcE k iv p).length = p.length ∧ (cbcD k iv p).length = p.length ∧
    ∀ iv' : Bytes, iv'.length = 16 → ∀ j,
      (cbcD k iv' p).getD j 0 =
        if j < 16 ∧ j < p.length then (cbcD k iv p).getD j 0 ^^^ iv.getD j 0 ^^^ iv'.getD j 0
        else (cbcD k iv p).getD j 0

/-- R303, R304: padding appends 1 to 16 bytes of their own number up to `pad16(L)`, always passes the check, and is
removed whole. -/
def Obligations.UnpadInvertsPad : Prop :=
  ∀ p : Bytes, padOk (pad p) = true ∧ unpad (pad p) = p ∧ (pad p).length = pad16 p.length ∧
    (pad p).take p.length = p ∧
    ∃ n, 1 ≤ n ∧ n ≤ 16 ∧ n = 16 - p.length % 16 ∧
      (pad p).drop p.length = List.replicate n (BitVec.ofNat 8 n)

/-- R305: the comparator is true exactly when the two 32-byte sequences are equal. -/
def Obligations.ComparatorIsEquality : Prop :=
  ∀ a b : Bytes, a.length = 32 → b.length = 32 → (ctEq a b = true ↔ a = b)

/-- R304, R306: the masked padding check over the whole last block is the padding check. -/
def Obligations.MaskedPaddingCheckIsThePaddingCheck : Prop :=
  ∀ pp : Bytes, 0 < pp.length → pp.length % 16 = 0 → padOkMasked pp = padOk pp

/-- R254: the padded message is the message, 0x80, the least number of zero bytes that leaves 16 bytes before a
multiple of 128, and the length in bits as 16 big-endian bytes. -/
def Obligations.ShaPaddingIsTheLeast : Prop :=
  ∀ m : Bytes, ∃ z len, shaPad m = m ++ [0x80] ++ List.replicate z 0x00 ++ len ∧
    (m.length + 1 + z) % 128 = 112 ∧ (∀ z', (m.length + 1 + z') % 128 = 112 → z ≤ z') ∧
    len.length = 16 ∧
    (8 * m.length < 2 ^ 128 → len.foldl (fun n b => 256 * n + b.toNat) 0 = 8 * m.length) ∧
    (shaPad m).length % 128 = 0

/-- R256: the message schedule of a 128-byte block is its sixteen words and then the recurrence. -/
def Obligations.MessageScheduleFollowsItsRecurrence : Prop :=
  ∀ m : Bytes,
    let w := schedule m
    w.length = 80 ∧ (∀ t, t < 16 → w.getD t 0 = wordOfBytesBE m t) ∧
    (∀ t, 16 ≤ t → t < 80 →
      w.getD t 0 =
        smallSigma1 (w.getD (t - 2) 0) + w.getD (t - 7) 0 + smallSigma0 (w.getD (t - 15) 0) + w.getD (t - 16) 0)

/-- R258 to R260, R262: a digest and an HMAC have 64 bytes and a tag 32; a message of `l` bytes takes
`ceil((l + 17) / 128)` compressions, and the outer hash of an HMAC two. -/
def Obligations.DigestAndTagLengths : Prop :=
  ∀ k m : Bytes, (sha512 m).length = 64 ∧ (hmac512 k m).length = 64 ∧ (tagOf k m).length = 32 ∧
    (chunks 128 (shaPad m)).length = (m.length + 17 + 127) / 128 ∧
    (k.length ≤ 128 →
      (chunks 128 (shaPad (xorByte (hmacKey k) 0x5c ++ sha512 m))).length = 2)
end

