-- ==== Sys2Proof/Laws/Aes.lean ====
section
/-! SUPPORT. Laws of the AES state: the layout of a block, the exclusive or, and the linearity of the field's
products by constants. -/

namespace Sys2Proof.Machine

@[simp] theorem Block.unload_length (b : Block) : b.unload.length = 16 := rfl

@[simp] theorem Block.load_unload (b : Block) : Block.load b.unload = b := rfl

/-- `unload` undoes `load` on 16 bytes (41_aes256.md R200). -/
theorem Block.unload_load (b : Bytes) (h : b.length = 16) : (Block.load b).unload = b := by
  apply List.ext_getElem
  · rw [h]; rfl
  · intro n h1 h2
    have : n < 16 := h ▸ h2
    interval_cases n <;> simp [Block.load, Block.unload, colAt, Col.bytes, h]

/-- Adding a block twice gives the state back (R211). -/
@[simp] theorem Block.xor_xor (a k : Block) : (a.xor k).xor k = a := by
  simp [Block.xor, Col.xor]

@[simp] theorem addRoundKey_addRoundKey (w : List Col) (r : Nat) (b : Block) :
    addRoundKey w r (addRoundKey w r b) = b := Block.xor_xor _ _

theorem invShiftRows_shiftRows (b : Block) : invShiftRows (shiftRows b) = b := rfl

theorem shiftRows_invShiftRows (b : Block) : shiftRows (invShiftRows b) = b := rfl

/-- The doubling of the field is linear (R202). -/
theorem xtime_xor (a b : Byte) : xtime (a ^^^ b) = xtime a ^^^ xtime b := by
  have e : (a <<< 1 ^^^ 27#8) ^^^ (b <<< 1 ^^^ 27#8) = (a <<< 1 ^^^ b <<< 1) ^^^ (27#8 ^^^ 27#8) := by
    ac_rfl
  have hm : (a ^^^ b).msb = (a.msb ^^ b.msb) := by simp [BitVec.msb_eq_getLsbD_last]
  unfold xtime
  rw [BitVec.shiftLeft_xor_distrib, hm]
  cases a.msb <;> cases b.msb
  · simp
  · simp; ac_rfl
  · simp; ac_rfl
  · simpa using e.symm

theorem mul03_xor (a b : Byte) : mul03 (a ^^^ b) = mul03 a ^^^ mul03 b := by
  simp only [mul03, xtime_xor]; ac_rfl

theorem mul09_xor (a b : Byte) : mul09 (a ^^^ b) = mul09 a ^^^ mul09 b := by
  simp only [mul09, xtime_xor]; ac_rfl

theorem mul0b_xor (a b : Byte) : mul0b (a ^^^ b) = mul0b a ^^^ mul0b b := by
  simp only [mul0b, xtime_xor]; ac_rfl

theorem mul0d_xor (a b : Byte) : mul0d (a ^^^ b) = mul0d a ^^^ mul0d b := by
  simp only [mul0d, xtime_xor]; ac_rfl

theorem mul0e_xor (a b : Byte) : mul0e (a ^^^ b) = mul0e a ^^^ mul0e b := by
  simp only [mul0e, xtime_xor]; ac_rfl

end Sys2Proof.Machine
end

