-- ==== Sys2Proof/Laws/State.lean ====
section
/-! SUPPORT. One lemma per field per update of the state, each true by unfolding the update once. -/

namespace Sys2Proof.Machine

@[simp] theorem complete_ctrlStrict (e : Err) (out : Bytes) (s : State) (n : Fin 17) (c : BitVec 2) :
    (complete e out s n c).ctrlStrict = s.ctrlStrict := rfl
@[simp] theorem complete_ctrlIrqEn (e : Err) (out : Bytes) (s : State) (n : Fin 17) (c : BitVec 2) :
    (complete e out s n c).ctrlIrqEn = s.ctrlIrqEn := rfl
@[simp] theorem complete_statusErr (e : Err) (out : Bytes) (s : State) (n : Fin 17) (c : BitVec 2) :
    (complete e out s n c).statusErr = e := rfl
@[simp] theorem complete_statusRngCond (e : Err) (out : Bytes) (s : State) (n : Fin 17) (c : BitVec 2) :
    (complete e out s n c).statusRngCond = c := rfl
@[simp] theorem complete_statusRngCount (e : Err) (out : Bytes) (s : State) (n : Fin 17) (c : BitVec 2) :
    (complete e out s n c).statusRngCount = n := rfl
@[simp] theorem complete_statusLastOp (e : Err) (out : Bytes) (s : State) (n : Fin 17) (c : BitVec 2) :
    (complete e out s n c).statusLastOp = s.statusLastOp := rfl
@[simp] theorem complete_evDone (e : Err) (out : Bytes) (s : State) (n : Fin 17) (c : BitVec 2) :
    (complete e out s n c).evDone = true := rfl
@[simp] theorem complete_evCmdDropped (e : Err) (out : Bytes) (s : State) (n : Fin 17) (c : BitVec 2) :
    (complete e out s n c).evCmdDropped = s.evCmdDropped := rfl
@[simp] theorem complete_evWrIgnored (e : Err) (out : Bytes) (s : State) (n : Fin 17) (c : BitVec 2) :
    (complete e out s n c).evWrIgnored = s.evWrIgnored := rfl
@[simp] theorem complete_keyLen (e : Err) (out : Bytes) (s : State) (n : Fin 17) (c : BitVec 2) :
    (complete e out s n c).keyLen = s.keyLen := rfl
@[simp] theorem complete_inLen (e : Err) (out : Bytes) (s : State) (n : Fin 17) (c : BitVec 2) :
    (complete e out s n c).inLen = s.inLen := rfl
@[simp] theorem complete_outLen (e : Err) (out : Bytes) (s : State) (n : Fin 17) (c : BitVec 2) :
    (complete e out s n c).outLen = BitVec.ofNat 16 out.length := rfl
@[simp] theorem complete_kstage (e : Err) (out : Bytes) (s : State) (n : Fin 17) (c : BitVec 2) :
    (complete e out s n c).kstage = s.kstage := rfl
@[simp] theorem complete_ibuf (e : Err) (out : Bytes) (s : State) (n : Fin 17) (c : BitVec 2) :
    (complete e out s n c).ibuf = s.ibuf := rfl
@[simp] theorem complete_obuf (e : Err) (out : Bytes) (s : State) (n : Fin 17) (c : BitVec 2) :
    (complete e out s n c).obuf = out := rfl
@[simp] theorem complete_keys (e : Err) (out : Bytes) (s : State) (n : Fin 17) (c : BitVec 2) :
    (complete e out s n c).keys = s.keys := rfl
@[simp] theorem complete_phase (e : Err) (out : Bytes) (s : State) (n : Fin 17) (c : BitVec 2) :
    (complete e out s n c).phase = .idle := rfl
@[simp] theorem complete_rng (e : Err) (out : Bytes) (s : State) (n : Fin 17) (c : BitVec 2) :
    (complete e out s n c).rng = RngPort.quiet := rfl
@[simp] theorem complete_dp (e : Err) (out : Bytes) (s : State) (n : Fin 17) (c : BitVec 2) :
    (complete e out s n c).dp = Datapath.zero := rfl
@[simp] theorem complete_cfg (e : Err) (out : Bytes) (s : State) (n : Fin 17) (c : BitVec 2) :
    (complete e out s n c).cfg = s.cfg := rfl
@[simp] theorem complete_resets (e : Err) (out : Bytes) (s : State) (n : Fin 17) (c : BitVec 2) :
    (complete e out s n c).resets = s.resets := rfl
@[simp] theorem complete_cyclesLeft (e : Err) (out : Bytes) (s : State) (n : Fin 17) (c : BitVec 2) :
    (complete e out s n c).cyclesLeft = 0 := rfl
@[simp] theorem complete_inputs (e : Err) (out : Bytes) (s : State) (n : Fin 17) (c : BitVec 2) :
    (complete e out s n c).inputs = s.inputs := rfl
@[simp] theorem complete_reply (e : Err) (out : Bytes) (s : State) (n : Fin 17) (c : BitVec 2) :
    (complete e out s n c).reply = s.reply := rfl

@[simp] theorem accept_ctrlStrict (w : Word) (s : State) :
    (accept w s).ctrlStrict = s.ctrlStrict := rfl
@[simp] theorem accept_ctrlIrqEn (w : Word) (s : State) :
    (accept w s).ctrlIrqEn = s.ctrlIrqEn := rfl
@[simp] theorem accept_statusErr (w : Word) (s : State) :
    (accept w s).statusErr = .ok := rfl
@[simp] theorem accept_statusRngCond (w : Word) (s : State) :
    (accept w s).statusRngCond = 0 := rfl
@[simp] theorem accept_statusRngCount (w : Word) (s : State) :
    (accept w s).statusRngCount = 0 := rfl
@[simp] theorem accept_statusLastOp (w : Word) (s : State) :
    (accept w s).statusLastOp = (cmdFields w).op := rfl
@[simp] theorem accept_evDone (w : Word) (s : State) :
    (accept w s).evDone = false := rfl
@[simp] theorem accept_evCmdDropped (w : Word) (s : State) :
    (accept w s).evCmdDropped = s.evCmdDropped := rfl
@[simp] theorem accept_evWrIgnored (w : Word) (s : State) :
    (accept w s).evWrIgnored = s.evWrIgnored := rfl
@[simp] theorem accept_keyLen (w : Word) (s : State) :
    (accept w s).keyLen = s.keyLen := rfl
@[simp] theorem accept_inLen (w : Word) (s : State) :
    (accept w s).inLen = s.inLen := rfl
@[simp] theorem accept_outLen (w : Word) (s : State) :
    (accept w s).outLen = 0 := rfl
@[simp] theorem accept_kstage (w : Word) (s : State) :
    (accept w s).kstage = s.kstage := rfl
@[simp] theorem accept_ibuf (w : Word) (s : State) :
    (accept w s).ibuf = s.ibuf := rfl
@[simp] theorem accept_obuf (w : Word) (s : State) :
    (accept w s).obuf = [] := rfl
@[simp] theorem accept_keys (w : Word) (s : State) :
    (accept w s).keys = s.keys := rfl
@[simp] theorem accept_phase (w : Word) (s : State) :
    (accept w s).phase = .run (takeSnapshot s (cmdFields w)) := rfl
@[simp] theorem accept_rng (w : Word) (s : State) :
    (accept w s).rng = s.rng := rfl
@[simp] theorem accept_dp (w : Word) (s : State) :
    (accept w s).dp = s.dp := rfl
@[simp] theorem accept_cfg (w : Word) (s : State) :
    (accept w s).cfg = s.cfg := rfl
@[simp] theorem accept_resets (w : Word) (s : State) :
    (accept w s).resets = s.resets := rfl
@[simp] theorem accept_cyclesLeft (w : Word) (s : State) :
    (accept w s).cyclesLeft = commandLatency s.cfg (takeSnapshot s (cmdFields w)) := rfl
@[simp] theorem accept_inputs (w : Word) (s : State) :
    (accept w s).inputs = s.inputs := rfl
@[simp] theorem accept_reply (w : Word) (s : State) :
    (accept w s).reply = s.reply := rfl

@[simp] theorem requestRng_ctrlStrict (snap : Snapshot) (s : State) :
    (requestRng snap s).ctrlStrict = s.ctrlStrict := rfl
@[simp] theorem requestRng_ctrlIrqEn (snap : Snapshot) (s : State) :
    (requestRng snap s).ctrlIrqEn = s.ctrlIrqEn := rfl
@[simp] theorem requestRng_statusErr (snap : Snapshot) (s : State) :
    (requestRng snap s).statusErr = s.statusErr := rfl
@[simp] theorem requestRng_statusRngCond (snap : Snapshot) (s : State) :
    (requestRng snap s).statusRngCond = s.statusRngCond := rfl
@[simp] theorem requestRng_statusRngCount (snap : Snapshot) (s : State) :
    (requestRng snap s).statusRngCount = s.statusRngCount := rfl
@[simp] theorem requestRng_statusLastOp (snap : Snapshot) (s : State) :
    (requestRng snap s).statusLastOp = s.statusLastOp := rfl
@[simp] theorem requestRng_evDone (snap : Snapshot) (s : State) :
    (requestRng snap s).evDone = s.evDone := rfl
@[simp] theorem requestRng_evCmdDropped (snap : Snapshot) (s : State) :
    (requestRng snap s).evCmdDropped = s.evCmdDropped := rfl
@[simp] theorem requestRng_evWrIgnored (snap : Snapshot) (s : State) :
    (requestRng snap s).evWrIgnored = s.evWrIgnored := rfl
@[simp] theorem requestRng_keyLen (snap : Snapshot) (s : State) :
    (requestRng snap s).keyLen = s.keyLen := rfl
@[simp] theorem requestRng_inLen (snap : Snapshot) (s : State) :
    (requestRng snap s).inLen = s.inLen := rfl
@[simp] theorem requestRng_outLen (snap : Snapshot) (s : State) :
    (requestRng snap s).outLen = s.outLen := rfl
@[simp] theorem requestRng_kstage (snap : Snapshot) (s : State) :
    (requestRng snap s).kstage = s.kstage := rfl
@[simp] theorem requestRng_ibuf (snap : Snapshot) (s : State) :
    (requestRng snap s).ibuf = s.ibuf := rfl
@[simp] theorem requestRng_obuf (snap : Snapshot) (s : State) :
    (requestRng snap s).obuf = s.obuf := rfl
@[simp] theorem requestRng_keys (snap : Snapshot) (s : State) :
    (requestRng snap s).keys = s.keys := rfl
@[simp] theorem requestRng_phase (snap : Snapshot) (s : State) :
    (requestRng snap s).phase = .rngWait snap := rfl
@[simp] theorem requestRng_rng (snap : Snapshot) (s : State) :
    (requestRng snap s).rng = ⟨true, none⟩ := rfl
@[simp] theorem requestRng_dp (snap : Snapshot) (s : State) :
    (requestRng snap s).dp = s.dp := rfl
@[simp] theorem requestRng_cfg (snap : Snapshot) (s : State) :
    (requestRng snap s).cfg = s.cfg := rfl
@[simp] theorem requestRng_resets (snap : Snapshot) (s : State) :
    (requestRng snap s).resets = s.resets := rfl
@[simp] theorem requestRng_cyclesLeft (snap : Snapshot) (s : State) :
    (requestRng snap s).cyclesLeft = s.cyclesLeft := rfl
@[simp] theorem requestRng_inputs (snap : Snapshot) (s : State) :
    (requestRng snap s).inputs = s.inputs := rfl
@[simp] theorem requestRng_reply (snap : Snapshot) (s : State) :
    (requestRng snap s).reply = s.reply := rfl

@[simp] theorem ignoreWrite_ctrlStrict (s : State) :
    (ignoreWrite s).ctrlStrict = s.ctrlStrict := rfl
@[simp] theorem ignoreWrite_ctrlIrqEn (s : State) :
    (ignoreWrite s).ctrlIrqEn = s.ctrlIrqEn := rfl
@[simp] theorem ignoreWrite_statusErr (s : State) :
    (ignoreWrite s).statusErr = s.statusErr := rfl
@[simp] theorem ignoreWrite_statusRngCond (s : State) :
    (ignoreWrite s).statusRngCond = s.statusRngCond := rfl
@[simp] theorem ignoreWrite_statusRngCount (s : State) :
    (ignoreWrite s).statusRngCount = s.statusRngCount := rfl
@[simp] theorem ignoreWrite_statusLastOp (s : State) :
    (ignoreWrite s).statusLastOp = s.statusLastOp := rfl
@[simp] theorem ignoreWrite_evDone (s : State) :
    (ignoreWrite s).evDone = s.evDone := rfl
@[simp] theorem ignoreWrite_evCmdDropped (s : State) :
    (ignoreWrite s).evCmdDropped = s.evCmdDropped := rfl
@[simp] theorem ignoreWrite_evWrIgnored (s : State) :
    (ignoreWrite s).evWrIgnored = true := rfl
@[simp] theorem ignoreWrite_keyLen (s : State) :
    (ignoreWrite s).keyLen = s.keyLen := rfl
@[simp] theorem ignoreWrite_inLen (s : State) :
    (ignoreWrite s).inLen = s.inLen := rfl
@[simp] theorem ignoreWrite_outLen (s : State) :
    (ignoreWrite s).outLen = s.outLen := rfl
@[simp] theorem ignoreWrite_kstage (s : State) :
    (ignoreWrite s).kstage = s.kstage := rfl
@[simp] theorem ignoreWrite_ibuf (s : State) :
    (ignoreWrite s).ibuf = s.ibuf := rfl
@[simp] theorem ignoreWrite_obuf (s : State) :
    (ignoreWrite s).obuf = s.obuf := rfl
@[simp] theorem ignoreWrite_keys (s : State) :
    (ignoreWrite s).keys = s.keys := rfl
@[simp] theorem ignoreWrite_phase (s : State) :
    (ignoreWrite s).phase = s.phase := rfl
@[simp] theorem ignoreWrite_rng (s : State) :
    (ignoreWrite s).rng = s.rng := rfl
@[simp] theorem ignoreWrite_dp (s : State) :
    (ignoreWrite s).dp = s.dp := rfl
@[simp] theorem ignoreWrite_cfg (s : State) :
    (ignoreWrite s).cfg = s.cfg := rfl
@[simp] theorem ignoreWrite_resets (s : State) :
    (ignoreWrite s).resets = s.resets := rfl
@[simp] theorem ignoreWrite_cyclesLeft (s : State) :
    (ignoreWrite s).cyclesLeft = s.cyclesLeft := rfl
@[simp] theorem ignoreWrite_inputs (s : State) :
    (ignoreWrite s).inputs = s.inputs := rfl
@[simp] theorem ignoreWrite_reply (s : State) :
    (ignoreWrite s).reply = s.reply := rfl

@[simp] theorem dropCommand_ctrlStrict (s : State) :
    (dropCommand s).ctrlStrict = s.ctrlStrict := rfl
@[simp] theorem dropCommand_ctrlIrqEn (s : State) :
    (dropCommand s).ctrlIrqEn = s.ctrlIrqEn := rfl
@[simp] theorem dropCommand_statusErr (s : State) :
    (dropCommand s).statusErr = s.statusErr := rfl
@[simp] theorem dropCommand_statusRngCond (s : State) :
    (dropCommand s).statusRngCond = s.statusRngCond := rfl
@[simp] theorem dropCommand_statusRngCount (s : State) :
    (dropCommand s).statusRngCount = s.statusRngCount := rfl
@[simp] theorem dropCommand_statusLastOp (s : State) :
    (dropCommand s).statusLastOp = s.statusLastOp := rfl
@[simp] theorem dropCommand_evDone (s : State) :
    (dropCommand s).evDone = s.evDone := rfl
@[simp] theorem dropCommand_evCmdDropped (s : State) :
    (dropCommand s).evCmdDropped = true := rfl
@[simp] theorem dropCommand_evWrIgnored (s : State) :
    (dropCommand s).evWrIgnored = s.evWrIgnored := rfl
@[simp] theorem dropCommand_keyLen (s : State) :
    (dropCommand s).keyLen = s.keyLen := rfl
@[simp] theorem dropCommand_inLen (s : State) :
    (dropCommand s).inLen = s.inLen := rfl
@[simp] theorem dropCommand_outLen (s : State) :
    (dropCommand s).outLen = s.outLen := rfl
@[simp] theorem dropCommand_kstage (s : State) :
    (dropCommand s).kstage = s.kstage := rfl
@[simp] theorem dropCommand_ibuf (s : State) :
    (dropCommand s).ibuf = s.ibuf := rfl
@[simp] theorem dropCommand_obuf (s : State) :
    (dropCommand s).obuf = s.obuf := rfl
@[simp] theorem dropCommand_keys (s : State) :
    (dropCommand s).keys = s.keys := rfl
@[simp] theorem dropCommand_phase (s : State) :
    (dropCommand s).phase = s.phase := rfl
@[simp] theorem dropCommand_rng (s : State) :
    (dropCommand s).rng = s.rng := rfl
@[simp] theorem dropCommand_dp (s : State) :
    (dropCommand s).dp = s.dp := rfl
@[simp] theorem dropCommand_cfg (s : State) :
    (dropCommand s).cfg = s.cfg := rfl
@[simp] theorem dropCommand_resets (s : State) :
    (dropCommand s).resets = s.resets := rfl
@[simp] theorem dropCommand_cyclesLeft (s : State) :
    (dropCommand s).cyclesLeft = s.cyclesLeft := rfl
@[simp] theorem dropCommand_inputs (s : State) :
    (dropCommand s).inputs = s.inputs := rfl
@[simp] theorem dropCommand_reply (s : State) :
    (dropCommand s).reply = s.reply := rfl

@[simp] theorem writeCtrl_ctrlStrict (w : Word) (s : State) :
    (writeCtrl w s).ctrlStrict = w.getLsbD 0 := rfl
@[simp] theorem writeCtrl_ctrlIrqEn (w : Word) (s : State) :
    (writeCtrl w s).ctrlIrqEn = w.getLsbD 1 := rfl
@[simp] theorem writeCtrl_statusErr (w : Word) (s : State) :
    (writeCtrl w s).statusErr = s.statusErr := rfl
@[simp] theorem writeCtrl_statusRngCond (w : Word) (s : State) :
    (writeCtrl w s).statusRngCond = s.statusRngCond := rfl
@[simp] theorem writeCtrl_statusRngCount (w : Word) (s : State) :
    (writeCtrl w s).statusRngCount = s.statusRngCount := rfl
@[simp] theorem writeCtrl_statusLastOp (w : Word) (s : State) :
    (writeCtrl w s).statusLastOp = s.statusLastOp := rfl
@[simp] theorem writeCtrl_evDone (w : Word) (s : State) :
    (writeCtrl w s).evDone = s.evDone := rfl
@[simp] theorem writeCtrl_evCmdDropped (w : Word) (s : State) :
    (writeCtrl w s).evCmdDropped = s.evCmdDropped := rfl
@[simp] theorem writeCtrl_evWrIgnored (w : Word) (s : State) :
    (writeCtrl w s).evWrIgnored = s.evWrIgnored := rfl
@[simp] theorem writeCtrl_keyLen (w : Word) (s : State) :
    (writeCtrl w s).keyLen = s.keyLen := rfl
@[simp] theorem writeCtrl_inLen (w : Word) (s : State) :
    (writeCtrl w s).inLen = s.inLen := rfl
@[simp] theorem writeCtrl_outLen (w : Word) (s : State) :
    (writeCtrl w s).outLen = s.outLen := rfl
@[simp] theorem writeCtrl_kstage (w : Word) (s : State) :
    (writeCtrl w s).kstage = s.kstage := rfl
@[simp] theorem writeCtrl_ibuf (w : Word) (s : State) :
    (writeCtrl w s).ibuf = s.ibuf := rfl
@[simp] theorem writeCtrl_obuf (w : Word) (s : State) :
    (writeCtrl w s).obuf = s.obuf := rfl
@[simp] theorem writeCtrl_keys (w : Word) (s : State) :
    (writeCtrl w s).keys = s.keys := rfl
@[simp] theorem writeCtrl_phase (w : Word) (s : State) :
    (writeCtrl w s).phase = s.phase := rfl
@[simp] theorem writeCtrl_rng (w : Word) (s : State) :
    (writeCtrl w s).rng = s.rng := rfl
@[simp] theorem writeCtrl_dp (w : Word) (s : State) :
    (writeCtrl w s).dp = s.dp := rfl
@[simp] theorem writeCtrl_cfg (w : Word) (s : State) :
    (writeCtrl w s).cfg = s.cfg := rfl
@[simp] theorem writeCtrl_resets (w : Word) (s : State) :
    (writeCtrl w s).resets = s.resets := rfl
@[simp] theorem writeCtrl_cyclesLeft (w : Word) (s : State) :
    (writeCtrl w s).cyclesLeft = s.cyclesLeft := rfl
@[simp] theorem writeCtrl_inputs (w : Word) (s : State) :
    (writeCtrl w s).inputs = s.inputs := rfl
@[simp] theorem writeCtrl_reply (w : Word) (s : State) :
    (writeCtrl w s).reply = s.reply := rfl

@[simp] theorem writeEvent_ctrlStrict (w : Word) (s : State) :
    (writeEvent w s).ctrlStrict = s.ctrlStrict := rfl
@[simp] theorem writeEvent_ctrlIrqEn (w : Word) (s : State) :
    (writeEvent w s).ctrlIrqEn = s.ctrlIrqEn := rfl
@[simp] theorem writeEvent_statusErr (w : Word) (s : State) :
    (writeEvent w s).statusErr = s.statusErr := rfl
@[simp] theorem writeEvent_statusRngCond (w : Word) (s : State) :
    (writeEvent w s).statusRngCond = s.statusRngCond := rfl
@[simp] theorem writeEvent_statusRngCount (w : Word) (s : State) :
    (writeEvent w s).statusRngCount = s.statusRngCount := rfl
@[simp] theorem writeEvent_statusLastOp (w : Word) (s : State) :
    (writeEvent w s).statusLastOp = s.statusLastOp := rfl
@[simp] theorem writeEvent_evDone (w : Word) (s : State) :
    (writeEvent w s).evDone = (s.evDone && !w.getLsbD 0) := rfl
@[simp] theorem writeEvent_evCmdDropped (w : Word) (s : State) :
    (writeEvent w s).evCmdDropped = (s.evCmdDropped && !w.getLsbD 1) := rfl
@[simp] theorem writeEvent_evWrIgnored (w : Word) (s : State) :
    (writeEvent w s).evWrIgnored = (s.evWrIgnored && !w.getLsbD 2) := rfl
@[simp] theorem writeEvent_keyLen (w : Word) (s : State) :
    (writeEvent w s).keyLen = s.keyLen := rfl
@[simp] theorem writeEvent_inLen (w : Word) (s : State) :
    (writeEvent w s).inLen = s.inLen := rfl
@[simp] theorem writeEvent_outLen (w : Word) (s : State) :
    (writeEvent w s).outLen = s.outLen := rfl
@[simp] theorem writeEvent_kstage (w : Word) (s : State) :
    (writeEvent w s).kstage = s.kstage := rfl
@[simp] theorem writeEvent_ibuf (w : Word) (s : State) :
    (writeEvent w s).ibuf = s.ibuf := rfl
@[simp] theorem writeEvent_obuf (w : Word) (s : State) :
    (writeEvent w s).obuf = s.obuf := rfl
@[simp] theorem writeEvent_keys (w : Word) (s : State) :
    (writeEvent w s).keys = s.keys := rfl
@[simp] theorem writeEvent_phase (w : Word) (s : State) :
    (writeEvent w s).phase = s.phase := rfl
@[simp] theorem writeEvent_rng (w : Word) (s : State) :
    (writeEvent w s).rng = s.rng := rfl
@[simp] theorem writeEvent_dp (w : Word) (s : State) :
    (writeEvent w s).dp = s.dp := rfl
@[simp] theorem writeEvent_cfg (w : Word) (s : State) :
    (writeEvent w s).cfg = s.cfg := rfl
@[simp] theorem writeEvent_resets (w : Word) (s : State) :
    (writeEvent w s).resets = s.resets := rfl
@[simp] theorem writeEvent_cyclesLeft (w : Word) (s : State) :
    (writeEvent w s).cyclesLeft = s.cyclesLeft := rfl
@[simp] theorem writeEvent_inputs (w : Word) (s : State) :
    (writeEvent w s).inputs = s.inputs := rfl
@[simp] theorem writeEvent_reply (w : Word) (s : State) :
    (writeEvent w s).reply = s.reply := rfl

@[simp] theorem writeKeyLen_ctrlStrict (w : Word) (s : State) :
    (writeKeyLen w s).ctrlStrict = s.ctrlStrict := rfl
@[simp] theorem writeKeyLen_ctrlIrqEn (w : Word) (s : State) :
    (writeKeyLen w s).ctrlIrqEn = s.ctrlIrqEn := rfl
@[simp] theorem writeKeyLen_statusErr (w : Word) (s : State) :
    (writeKeyLen w s).statusErr = s.statusErr := rfl
@[simp] theorem writeKeyLen_statusRngCond (w : Word) (s : State) :
    (writeKeyLen w s).statusRngCond = s.statusRngCond := rfl
@[simp] theorem writeKeyLen_statusRngCount (w : Word) (s : State) :
    (writeKeyLen w s).statusRngCount = s.statusRngCount := rfl
@[simp] theorem writeKeyLen_statusLastOp (w : Word) (s : State) :
    (writeKeyLen w s).statusLastOp = s.statusLastOp := rfl
@[simp] theorem writeKeyLen_evDone (w : Word) (s : State) :
    (writeKeyLen w s).evDone = s.evDone := rfl
@[simp] theorem writeKeyLen_evCmdDropped (w : Word) (s : State) :
    (writeKeyLen w s).evCmdDropped = s.evCmdDropped := rfl
@[simp] theorem writeKeyLen_evWrIgnored (w : Word) (s : State) :
    (writeKeyLen w s).evWrIgnored = s.evWrIgnored := rfl
@[simp] theorem writeKeyLen_keyLen (w : Word) (s : State) :
    (writeKeyLen w s).keyLen = w.setWidth 16 := rfl
@[simp] theorem writeKeyLen_inLen (w : Word) (s : State) :
    (writeKeyLen w s).inLen = s.inLen := rfl
@[simp] theorem writeKeyLen_outLen (w : Word) (s : State) :
    (writeKeyLen w s).outLen = s.outLen := rfl
@[simp] theorem writeKeyLen_kstage (w : Word) (s : State) :
    (writeKeyLen w s).kstage = s.kstage := rfl
@[simp] theorem writeKeyLen_ibuf (w : Word) (s : State) :
    (writeKeyLen w s).ibuf = s.ibuf := rfl
@[simp] theorem writeKeyLen_obuf (w : Word) (s : State) :
    (writeKeyLen w s).obuf = s.obuf := rfl
@[simp] theorem writeKeyLen_keys (w : Word) (s : State) :
    (writeKeyLen w s).keys = s.keys := rfl
@[simp] theorem writeKeyLen_phase (w : Word) (s : State) :
    (writeKeyLen w s).phase = s.phase := rfl
@[simp] theorem writeKeyLen_rng (w : Word) (s : State) :
    (writeKeyLen w s).rng = s.rng := rfl
@[simp] theorem writeKeyLen_dp (w : Word) (s : State) :
    (writeKeyLen w s).dp = s.dp := rfl
@[simp] theorem writeKeyLen_cfg (w : Word) (s : State) :
    (writeKeyLen w s).cfg = s.cfg := rfl
@[simp] theorem writeKeyLen_resets (w : Word) (s : State) :
    (writeKeyLen w s).resets = s.resets := rfl
@[simp] theorem writeKeyLen_cyclesLeft (w : Word) (s : State) :
    (writeKeyLen w s).cyclesLeft = s.cyclesLeft := rfl
@[simp] theorem writeKeyLen_inputs (w : Word) (s : State) :
    (writeKeyLen w s).inputs = s.inputs := rfl
@[simp] theorem writeKeyLen_reply (w : Word) (s : State) :
    (writeKeyLen w s).reply = s.reply := rfl

@[simp] theorem writeInLen_ctrlStrict (w : Word) (s : State) :
    (writeInLen w s).ctrlStrict = s.ctrlStrict := rfl
@[simp] theorem writeInLen_ctrlIrqEn (w : Word) (s : State) :
    (writeInLen w s).ctrlIrqEn = s.ctrlIrqEn := rfl
@[simp] theorem writeInLen_statusErr (w : Word) (s : State) :
    (writeInLen w s).statusErr = s.statusErr := rfl
@[simp] theorem writeInLen_statusRngCond (w : Word) (s : State) :
    (writeInLen w s).statusRngCond = s.statusRngCond := rfl
@[simp] theorem writeInLen_statusRngCount (w : Word) (s : State) :
    (writeInLen w s).statusRngCount = s.statusRngCount := rfl
@[simp] theorem writeInLen_statusLastOp (w : Word) (s : State) :
    (writeInLen w s).statusLastOp = s.statusLastOp := rfl
@[simp] theorem writeInLen_evDone (w : Word) (s : State) :
    (writeInLen w s).evDone = s.evDone := rfl
@[simp] theorem writeInLen_evCmdDropped (w : Word) (s : State) :
    (writeInLen w s).evCmdDropped = s.evCmdDropped := rfl
@[simp] theorem writeInLen_evWrIgnored (w : Word) (s : State) :
    (writeInLen w s).evWrIgnored = s.evWrIgnored := rfl
@[simp] theorem writeInLen_keyLen (w : Word) (s : State) :
    (writeInLen w s).keyLen = s.keyLen := rfl
@[simp] theorem writeInLen_inLen (w : Word) (s : State) :
    (writeInLen w s).inLen = w.setWidth 16 := rfl
@[simp] theorem writeInLen_outLen (w : Word) (s : State) :
    (writeInLen w s).outLen = s.outLen := rfl
@[simp] theorem writeInLen_kstage (w : Word) (s : State) :
    (writeInLen w s).kstage = s.kstage := rfl
@[simp] theorem writeInLen_ibuf (w : Word) (s : State) :
    (writeInLen w s).ibuf = s.ibuf := rfl
@[simp] theorem writeInLen_obuf (w : Word) (s : State) :
    (writeInLen w s).obuf = s.obuf := rfl
@[simp] theorem writeInLen_keys (w : Word) (s : State) :
    (writeInLen w s).keys = s.keys := rfl
@[simp] theorem writeInLen_phase (w : Word) (s : State) :
    (writeInLen w s).phase = s.phase := rfl
@[simp] theorem writeInLen_rng (w : Word) (s : State) :
    (writeInLen w s).rng = s.rng := rfl
@[simp] theorem writeInLen_dp (w : Word) (s : State) :
    (writeInLen w s).dp = s.dp := rfl
@[simp] theorem writeInLen_cfg (w : Word) (s : State) :
    (writeInLen w s).cfg = s.cfg := rfl
@[simp] theorem writeInLen_resets (w : Word) (s : State) :
    (writeInLen w s).resets = s.resets := rfl
@[simp] theorem writeInLen_cyclesLeft (w : Word) (s : State) :
    (writeInLen w s).cyclesLeft = s.cyclesLeft := rfl
@[simp] theorem writeInLen_inputs (w : Word) (s : State) :
    (writeInLen w s).inputs = s.inputs := rfl
@[simp] theorem writeInLen_reply (w : Word) (s : State) :
    (writeInLen w s).reply = s.reply := rfl

@[simp] theorem writeIbufWord_ctrlStrict (j : Nat) (w : Word) (s : State) :
    (writeIbufWord j w s).ctrlStrict = s.ctrlStrict := rfl
@[simp] theorem writeIbufWord_ctrlIrqEn (j : Nat) (w : Word) (s : State) :
    (writeIbufWord j w s).ctrlIrqEn = s.ctrlIrqEn := rfl
@[simp] theorem writeIbufWord_statusErr (j : Nat) (w : Word) (s : State) :
    (writeIbufWord j w s).statusErr = s.statusErr := rfl
@[simp] theorem writeIbufWord_statusRngCond (j : Nat) (w : Word) (s : State) :
    (writeIbufWord j w s).statusRngCond = s.statusRngCond := rfl
@[simp] theorem writeIbufWord_statusRngCount (j : Nat) (w : Word) (s : State) :
    (writeIbufWord j w s).statusRngCount = s.statusRngCount := rfl
@[simp] theorem writeIbufWord_statusLastOp (j : Nat) (w : Word) (s : State) :
    (writeIbufWord j w s).statusLastOp = s.statusLastOp := rfl
@[simp] theorem writeIbufWord_evDone (j : Nat) (w : Word) (s : State) :
    (writeIbufWord j w s).evDone = s.evDone := rfl
@[simp] theorem writeIbufWord_evCmdDropped (j : Nat) (w : Word) (s : State) :
    (writeIbufWord j w s).evCmdDropped = s.evCmdDropped := rfl
@[simp] theorem writeIbufWord_evWrIgnored (j : Nat) (w : Word) (s : State) :
    (writeIbufWord j w s).evWrIgnored = s.evWrIgnored := rfl
@[simp] theorem writeIbufWord_keyLen (j : Nat) (w : Word) (s : State) :
    (writeIbufWord j w s).keyLen = s.keyLen := rfl
@[simp] theorem writeIbufWord_inLen (j : Nat) (w : Word) (s : State) :
    (writeIbufWord j w s).inLen = s.inLen := rfl
@[simp] theorem writeIbufWord_outLen (j : Nat) (w : Word) (s : State) :
    (writeIbufWord j w s).outLen = s.outLen := rfl
@[simp] theorem writeIbufWord_kstage (j : Nat) (w : Word) (s : State) :
    (writeIbufWord j w s).kstage = s.kstage := rfl
@[simp] theorem writeIbufWord_obuf (j : Nat) (w : Word) (s : State) :
    (writeIbufWord j w s).obuf = s.obuf := rfl
@[simp] theorem writeIbufWord_keys (j : Nat) (w : Word) (s : State) :
    (writeIbufWord j w s).keys = s.keys := rfl
@[simp] theorem writeIbufWord_phase (j : Nat) (w : Word) (s : State) :
    (writeIbufWord j w s).phase = s.phase := rfl
@[simp] theorem writeIbufWord_rng (j : Nat) (w : Word) (s : State) :
    (writeIbufWord j w s).rng = s.rng := rfl
@[simp] theorem writeIbufWord_dp (j : Nat) (w : Word) (s : State) :
    (writeIbufWord j w s).dp = s.dp := rfl
@[simp] theorem writeIbufWord_cfg (j : Nat) (w : Word) (s : State) :
    (writeIbufWord j w s).cfg = s.cfg := rfl
@[simp] theorem writeIbufWord_resets (j : Nat) (w : Word) (s : State) :
    (writeIbufWord j w s).resets = s.resets := rfl
@[simp] theorem writeIbufWord_cyclesLeft (j : Nat) (w : Word) (s : State) :
    (writeIbufWord j w s).cyclesLeft = s.cyclesLeft := rfl
@[simp] theorem writeIbufWord_inputs (j : Nat) (w : Word) (s : State) :
    (writeIbufWord j w s).inputs = s.inputs := rfl
@[simp] theorem writeIbufWord_reply (j : Nat) (w : Word) (s : State) :
    (writeIbufWord j w s).reply = s.reply := rfl

@[simp] theorem writeKstageWord_ctrlStrict (j : Nat) (w : Word) (s : State) :
    (writeKstageWord j w s).ctrlStrict = s.ctrlStrict := rfl
@[simp] theorem writeKstageWord_ctrlIrqEn (j : Nat) (w : Word) (s : State) :
    (writeKstageWord j w s).ctrlIrqEn = s.ctrlIrqEn := rfl
@[simp] theorem writeKstageWord_statusErr (j : Nat) (w : Word) (s : State) :
    (writeKstageWord j w s).statusErr = s.statusErr := rfl
@[simp] theorem writeKstageWord_statusRngCond (j : Nat) (w : Word) (s : State) :
    (writeKstageWord j w s).statusRngCond = s.statusRngCond := rfl
@[simp] theorem writeKstageWord_statusRngCount (j : Nat) (w : Word) (s : State) :
    (writeKstageWord j w s).statusRngCount = s.statusRngCount := rfl
@[simp] theorem writeKstageWord_statusLastOp (j : Nat) (w : Word) (s : State) :
    (writeKstageWord j w s).statusLastOp = s.statusLastOp := rfl
@[simp] theorem writeKstageWord_evDone (j : Nat) (w : Word) (s : State) :
    (writeKstageWord j w s).evDone = s.evDone := rfl
@[simp] theorem writeKstageWord_evCmdDropped (j : Nat) (w : Word) (s : State) :
    (writeKstageWord j w s).evCmdDropped = s.evCmdDropped := rfl
@[simp] theorem writeKstageWord_evWrIgnored (j : Nat) (w : Word) (s : State) :
    (writeKstageWord j w s).evWrIgnored = s.evWrIgnored := rfl
@[simp] theorem writeKstageWord_keyLen (j : Nat) (w : Word) (s : State) :
    (writeKstageWord j w s).keyLen = s.keyLen := rfl
@[simp] theorem writeKstageWord_inLen (j : Nat) (w : Word) (s : State) :
    (writeKstageWord j w s).inLen = s.inLen := rfl
@[simp] theorem writeKstageWord_outLen (j : Nat) (w : Word) (s : State) :
    (writeKstageWord j w s).outLen = s.outLen := rfl
@[simp] theorem writeKstageWord_ibuf (j : Nat) (w : Word) (s : State) :
    (writeKstageWord j w s).ibuf = s.ibuf := rfl
@[simp] theorem writeKstageWord_obuf (j : Nat) (w : Word) (s : State) :
    (writeKstageWord j w s).obuf = s.obuf := rfl
@[simp] theorem writeKstageWord_keys (j : Nat) (w : Word) (s : State) :
    (writeKstageWord j w s).keys = s.keys := rfl
@[simp] theorem writeKstageWord_phase (j : Nat) (w : Word) (s : State) :
    (writeKstageWord j w s).phase = s.phase := rfl
@[simp] theorem writeKstageWord_rng (j : Nat) (w : Word) (s : State) :
    (writeKstageWord j w s).rng = s.rng := rfl
@[simp] theorem writeKstageWord_dp (j : Nat) (w : Word) (s : State) :
    (writeKstageWord j w s).dp = s.dp := rfl
@[simp] theorem writeKstageWord_cfg (j : Nat) (w : Word) (s : State) :
    (writeKstageWord j w s).cfg = s.cfg := rfl
@[simp] theorem writeKstageWord_resets (j : Nat) (w : Word) (s : State) :
    (writeKstageWord j w s).resets = s.resets := rfl
@[simp] theorem writeKstageWord_cyclesLeft (j : Nat) (w : Word) (s : State) :
    (writeKstageWord j w s).cyclesLeft = s.cyclesLeft := rfl
@[simp] theorem writeKstageWord_inputs (j : Nat) (w : Word) (s : State) :
    (writeKstageWord j w s).inputs = s.inputs := rfl
@[simp] theorem writeKstageWord_reply (j : Nat) (w : Word) (s : State) :
    (writeKstageWord j w s).reply = s.reply := rfl

@[simp] theorem wipeKstage_ctrlStrict (s : State) :
    (wipeKstage s).ctrlStrict = s.ctrlStrict := rfl
@[simp] theorem wipeKstage_ctrlIrqEn (s : State) :
    (wipeKstage s).ctrlIrqEn = s.ctrlIrqEn := rfl
@[simp] theorem wipeKstage_statusErr (s : State) :
    (wipeKstage s).statusErr = s.statusErr := rfl
@[simp] theorem wipeKstage_statusRngCond (s : State) :
    (wipeKstage s).statusRngCond = s.statusRngCond := rfl
@[simp] theorem wipeKstage_statusRngCount (s : State) :
    (wipeKstage s).statusRngCount = s.statusRngCount := rfl
@[simp] theorem wipeKstage_statusLastOp (s : State) :
    (wipeKstage s).statusLastOp = s.statusLastOp := rfl
@[simp] theorem wipeKstage_evDone (s : State) :
    (wipeKstage s).evDone = s.evDone := rfl
@[simp] theorem wipeKstage_evCmdDropped (s : State) :
    (wipeKstage s).evCmdDropped = s.evCmdDropped := rfl
@[simp] theorem wipeKstage_evWrIgnored (s : State) :
    (wipeKstage s).evWrIgnored = s.evWrIgnored := rfl
@[simp] theorem wipeKstage_keyLen (s : State) :
    (wipeKstage s).keyLen = s.keyLen := rfl
@[simp] theorem wipeKstage_inLen (s : State) :
    (wipeKstage s).inLen = s.inLen := rfl
@[simp] theorem wipeKstage_outLen (s : State) :
    (wipeKstage s).outLen = s.outLen := rfl
@[simp] theorem wipeKstage_kstage (s : State) :
    (wipeKstage s).kstage = Vector.replicate 64 0 := rfl
@[simp] theorem wipeKstage_ibuf (s : State) :
    (wipeKstage s).ibuf = s.ibuf := rfl
@[simp] theorem wipeKstage_obuf (s : State) :
    (wipeKstage s).obuf = s.obuf := rfl
@[simp] theorem wipeKstage_keys (s : State) :
    (wipeKstage s).keys = s.keys := rfl
@[simp] theorem wipeKstage_phase (s : State) :
    (wipeKstage s).phase = s.phase := rfl
@[simp] theorem wipeKstage_rng (s : State) :
    (wipeKstage s).rng = s.rng := rfl
@[simp] theorem wipeKstage_dp (s : State) :
    (wipeKstage s).dp = s.dp := rfl
@[simp] theorem wipeKstage_cfg (s : State) :
    (wipeKstage s).cfg = s.cfg := rfl
@[simp] theorem wipeKstage_resets (s : State) :
    (wipeKstage s).resets = s.resets := rfl
@[simp] theorem wipeKstage_cyclesLeft (s : State) :
    (wipeKstage s).cyclesLeft = s.cyclesLeft := rfl
@[simp] theorem wipeKstage_inputs (s : State) :
    (wipeKstage s).inputs = s.inputs := rfl
@[simp] theorem wipeKstage_reply (s : State) :
    (wipeKstage s).reply = s.reply := rfl

@[simp] theorem wipeKeyLen_ctrlStrict (s : State) :
    (wipeKeyLen s).ctrlStrict = s.ctrlStrict := rfl
@[simp] theorem wipeKeyLen_ctrlIrqEn (s : State) :
    (wipeKeyLen s).ctrlIrqEn = s.ctrlIrqEn := rfl
@[simp] theorem wipeKeyLen_statusErr (s : State) :
    (wipeKeyLen s).statusErr = s.statusErr := rfl
@[simp] theorem wipeKeyLen_statusRngCond (s : State) :
    (wipeKeyLen s).statusRngCond = s.statusRngCond := rfl
@[simp] theorem wipeKeyLen_statusRngCount (s : State) :
    (wipeKeyLen s).statusRngCount = s.statusRngCount := rfl
@[simp] theorem wipeKeyLen_statusLastOp (s : State) :
    (wipeKeyLen s).statusLastOp = s.statusLastOp := rfl
@[simp] theorem wipeKeyLen_evDone (s : State) :
    (wipeKeyLen s).evDone = s.evDone := rfl
@[simp] theorem wipeKeyLen_evCmdDropped (s : State) :
    (wipeKeyLen s).evCmdDropped = s.evCmdDropped := rfl
@[simp] theorem wipeKeyLen_evWrIgnored (s : State) :
    (wipeKeyLen s).evWrIgnored = s.evWrIgnored := rfl
@[simp] theorem wipeKeyLen_keyLen (s : State) :
    (wipeKeyLen s).keyLen = 0 := rfl
@[simp] theorem wipeKeyLen_inLen (s : State) :
    (wipeKeyLen s).inLen = s.inLen := rfl
@[simp] theorem wipeKeyLen_outLen (s : State) :
    (wipeKeyLen s).outLen = s.outLen := rfl
@[simp] theorem wipeKeyLen_kstage (s : State) :
    (wipeKeyLen s).kstage = s.kstage := rfl
@[simp] theorem wipeKeyLen_ibuf (s : State) :
    (wipeKeyLen s).ibuf = s.ibuf := rfl
@[simp] theorem wipeKeyLen_obuf (s : State) :
    (wipeKeyLen s).obuf = s.obuf := rfl
@[simp] theorem wipeKeyLen_keys (s : State) :
    (wipeKeyLen s).keys = s.keys := rfl
@[simp] theorem wipeKeyLen_phase (s : State) :
    (wipeKeyLen s).phase = s.phase := rfl
@[simp] theorem wipeKeyLen_rng (s : State) :
    (wipeKeyLen s).rng = s.rng := rfl
@[simp] theorem wipeKeyLen_dp (s : State) :
    (wipeKeyLen s).dp = s.dp := rfl
@[simp] theorem wipeKeyLen_cfg (s : State) :
    (wipeKeyLen s).cfg = s.cfg := rfl
@[simp] theorem wipeKeyLen_resets (s : State) :
    (wipeKeyLen s).resets = s.resets := rfl
@[simp] theorem wipeKeyLen_cyclesLeft (s : State) :
    (wipeKeyLen s).cyclesLeft = s.cyclesLeft := rfl
@[simp] theorem wipeKeyLen_inputs (s : State) :
    (wipeKeyLen s).inputs = s.inputs := rfl
@[simp] theorem wipeKeyLen_reply (s : State) :
    (wipeKeyLen s).reply = s.reply := rfl

@[simp] theorem setKeys_ctrlStrict (k : KeyStore) (s : State) :
    (setKeys k s).ctrlStrict = s.ctrlStrict := rfl
@[simp] theorem setKeys_ctrlIrqEn (k : KeyStore) (s : State) :
    (setKeys k s).ctrlIrqEn = s.ctrlIrqEn := rfl
@[simp] theorem setKeys_statusErr (k : KeyStore) (s : State) :
    (setKeys k s).statusErr = s.statusErr := rfl
@[simp] theorem setKeys_statusRngCond (k : KeyStore) (s : State) :
    (setKeys k s).statusRngCond = s.statusRngCond := rfl
@[simp] theorem setKeys_statusRngCount (k : KeyStore) (s : State) :
    (setKeys k s).statusRngCount = s.statusRngCount := rfl
@[simp] theorem setKeys_statusLastOp (k : KeyStore) (s : State) :
    (setKeys k s).statusLastOp = s.statusLastOp := rfl
@[simp] theorem setKeys_evDone (k : KeyStore) (s : State) :
    (setKeys k s).evDone = s.evDone := rfl
@[simp] theorem setKeys_evCmdDropped (k : KeyStore) (s : State) :
    (setKeys k s).evCmdDropped = s.evCmdDropped := rfl
@[simp] theorem setKeys_evWrIgnored (k : KeyStore) (s : State) :
    (setKeys k s).evWrIgnored = s.evWrIgnored := rfl
@[simp] theorem setKeys_keyLen (k : KeyStore) (s : State) :
    (setKeys k s).keyLen = s.keyLen := rfl
@[simp] theorem setKeys_inLen (k : KeyStore) (s : State) :
    (setKeys k s).inLen = s.inLen := rfl
@[simp] theorem setKeys_outLen (k : KeyStore) (s : State) :
    (setKeys k s).outLen = s.outLen := rfl
@[simp] theorem setKeys_kstage (k : KeyStore) (s : State) :
    (setKeys k s).kstage = s.kstage := rfl
@[simp] theorem setKeys_ibuf (k : KeyStore) (s : State) :
    (setKeys k s).ibuf = s.ibuf := rfl
@[simp] theorem setKeys_obuf (k : KeyStore) (s : State) :
    (setKeys k s).obuf = s.obuf := rfl
@[simp] theorem setKeys_keys (k : KeyStore) (s : State) :
    (setKeys k s).keys = k := rfl
@[simp] theorem setKeys_phase (k : KeyStore) (s : State) :
    (setKeys k s).phase = s.phase := rfl
@[simp] theorem setKeys_rng (k : KeyStore) (s : State) :
    (setKeys k s).rng = s.rng := rfl
@[simp] theorem setKeys_dp (k : KeyStore) (s : State) :
    (setKeys k s).dp = s.dp := rfl
@[simp] theorem setKeys_cfg (k : KeyStore) (s : State) :
    (setKeys k s).cfg = s.cfg := rfl
@[simp] theorem setKeys_resets (k : KeyStore) (s : State) :
    (setKeys k s).resets = s.resets := rfl
@[simp] theorem setKeys_cyclesLeft (k : KeyStore) (s : State) :
    (setKeys k s).cyclesLeft = s.cyclesLeft := rfl
@[simp] theorem setKeys_inputs (k : KeyStore) (s : State) :
    (setKeys k s).inputs = s.inputs := rfl
@[simp] theorem setKeys_reply (k : KeyStore) (s : State) :
    (setKeys k s).reply = s.reply := rfl

@[simp] theorem resetWith_ctrlStrict (c : Config) (n : Nat) (l : List Input) :
    (State.resetWith c n l).ctrlStrict = true := rfl
@[simp] theorem resetWith_ctrlIrqEn (c : Config) (n : Nat) (l : List Input) :
    (State.resetWith c n l).ctrlIrqEn = false := rfl
@[simp] theorem resetWith_statusErr (c : Config) (n : Nat) (l : List Input) :
    (State.resetWith c n l).statusErr = .ok := rfl
@[simp] theorem resetWith_statusRngCond (c : Config) (n : Nat) (l : List Input) :
    (State.resetWith c n l).statusRngCond = 0 := rfl
@[simp] theorem resetWith_statusRngCount (c : Config) (n : Nat) (l : List Input) :
    (State.resetWith c n l).statusRngCount = 0 := rfl
@[simp] theorem resetWith_statusLastOp (c : Config) (n : Nat) (l : List Input) :
    (State.resetWith c n l).statusLastOp = 0 := rfl
@[simp] theorem resetWith_evDone (c : Config) (n : Nat) (l : List Input) :
    (State.resetWith c n l).evDone = false := rfl
@[simp] theorem resetWith_evCmdDropped (c : Config) (n : Nat) (l : List Input) :
    (State.resetWith c n l).evCmdDropped = false := rfl
@[simp] theorem resetWith_evWrIgnored (c : Config) (n : Nat) (l : List Input) :
    (State.resetWith c n l).evWrIgnored = false := rfl
@[simp] theorem resetWith_keyLen (c : Config) (n : Nat) (l : List Input) :
    (State.resetWith c n l).keyLen = 0 := rfl
@[simp] theorem resetWith_inLen (c : Config) (n : Nat) (l : List Input) :
    (State.resetWith c n l).inLen = 0 := rfl
@[simp] theorem resetWith_outLen (c : Config) (n : Nat) (l : List Input) :
    (State.resetWith c n l).outLen = 0 := rfl
@[simp] theorem resetWith_kstage (c : Config) (n : Nat) (l : List Input) :
    (State.resetWith c n l).kstage = Vector.replicate 64 0 := rfl
@[simp] theorem resetWith_ibuf (c : Config) (n : Nat) (l : List Input) :
    (State.resetWith c n l).ibuf = [] := rfl
@[simp] theorem resetWith_obuf (c : Config) (n : Nat) (l : List Input) :
    (State.resetWith c n l).obuf = [] := rfl
@[simp] theorem resetWith_keys (c : Config) (n : Nat) (l : List Input) :
    (State.resetWith c n l).keys = KeyStore.empty := rfl
@[simp] theorem resetWith_phase (c : Config) (n : Nat) (l : List Input) :
    (State.resetWith c n l).phase = .idle := rfl
@[simp] theorem resetWith_rng (c : Config) (n : Nat) (l : List Input) :
    (State.resetWith c n l).rng = RngPort.quiet := rfl
@[simp] theorem resetWith_dp (c : Config) (n : Nat) (l : List Input) :
    (State.resetWith c n l).dp = Datapath.zero := rfl
@[simp] theorem resetWith_cfg (c : Config) (n : Nat) (l : List Input) :
    (State.resetWith c n l).cfg = c := rfl
@[simp] theorem resetWith_resets (c : Config) (n : Nat) (l : List Input) :
    (State.resetWith c n l).resets = n := rfl
@[simp] theorem resetWith_cyclesLeft (c : Config) (n : Nat) (l : List Input) :
    (State.resetWith c n l).cyclesLeft = 0 := rfl
@[simp] theorem resetWith_inputs (c : Config) (n : Nat) (l : List Input) :
    (State.resetWith c n l).inputs = l := rfl
@[simp] theorem resetWith_reply (c : Config) (n : Nat) (l : List Input) :
    (State.resetWith c n l).reply = none := rfl

/-- A failing completion is a completion without output (40_commands.md R152). -/
@[simp] theorem fail_eq (e : Err) (s : State) : fail e s = complete e [] s 0 0 := rfl

/-- The reset input leaves the reset state for the same parameters and the actions to come. -/
@[simp] theorem assertReset_eq (s : State) :
    assertReset s = State.resetWith s.cfg (s.resets + 1) s.inputs := rfl

/-- The state right after reset is the reset state with the initial parameters. -/
@[simp] theorem reset_eq : State.reset = State.resetWith Config.initial 0 [] := rfl

end Sys2Proof.Machine
end

