-- ==== Sys2Proof/Laws/Bus.lean ====
section
/-! SUPPORT. What one bus write can do, and the address map at the offsets it names. -/

namespace Sys2Proof.Machine

theorem busy_eq_false (s : State) : s.busy = false ↔ s.phase = .idle := by
  unfold State.busy; cases s.phase <;> simp

theorem busy_eq_true (s : State) : s.busy = true ↔ s.phase ≠ .idle := by
  unfold State.busy; cases s.phase <;> simp

theorem inputWrite_idle (f : State → State) (s : State) (h : s.phase = .idle) :
    inputWrite f s = f s := by simp [inputWrite, (busy_eq_false s).mpr h]

theorem inputWrite_busy (f : State → State) (s : State) (h : s.phase ≠ .idle) :
    inputWrite f s = ignoreWrite s := by simp [inputWrite, (busy_eq_true s).mpr h]

/-- An aligned offset is a multiple of 4 (20_memory.md R92). -/
theorem aligned_iff (addr : BitVec 16) : aligned addr = true ↔ addr.toNat % 4 = 0 := by
  simp only [aligned, beq_iff_eq, ← BitVec.toNat_inj, BitVec.extractLsb'_toNat]
  simp

/-- The window and the unmapped offsets of the address map (10_state.md R32; R97). -/
theorem targetOf_low (cfg : Config) (addr : BitVec 16) (h : addr.toNat < 0x40) :
    targetOf cfg addr = registerAt addr.toNat := by simp [targetOf, h]

theorem targetOf_kstage (cfg : Config) (addr : BitVec 16) (h : 0x40 ≤ addr.toNat)
    (h' : addr.toNat < 0x80) : targetOf cfg addr = .kstage (addr.toNat - 0x40) := by
  simp [targetOf, h', Nat.not_lt.mpr h]

theorem targetOf_gap (cfg : Config) (addr : BitVec 16) (h : 0x80 ≤ addr.toNat)
    (h' : addr.toNat < 0x8000) : targetOf cfg addr = .unmapped := by
  unfold targetOf
  rw [if_neg (by omega), if_neg (by omega), if_pos h']

theorem targetOf_ibuf (cfg : Config) (addr : BitVec 16) (h : 0x8000 ≤ addr.toNat)
    (h' : addr.toNat < 0xC000) : targetOf cfg addr =
      if addr.toNat - 0x8000 < cfg.bufBytes then .ibuf (addr.toNat - 0x8000) else .unmapped := by
  unfold targetOf
  rw [if_neg (by omega), if_neg (by omega), if_neg (by omega), if_pos h']

theorem targetOf_obuf (cfg : Config) (addr : BitVec 16) (h : 0xC000 ≤ addr.toNat) :
    targetOf cfg addr =
      if addr.toNat - 0xC000 < cfg.bufBytes then .obuf (addr.toNat - 0xC000) else .unmapped := by
  unfold targetOf
  rw [if_neg (by omega), if_neg (by omega), if_neg (by omega), if_neg (by omega)]

/-- The register at an offset, or none (R32). -/
theorem registerAt_cases (o : Nat) :
    (o = 0x00 ∧ registerAt o = .id) ∨ (o = 0x04 ∧ registerAt o = .ctrl) ∨
    (o = 0x08 ∧ registerAt o = .cmd) ∨ (o = 0x0C ∧ registerAt o = .status) ∨
    (o = 0x10 ∧ registerAt o = .event) ∨ (o = 0x14 ∧ registerAt o = .keyLen) ∨
    (o = 0x18 ∧ registerAt o = .inLen) ∨ (o = 0x1C ∧ registerAt o = .outLen) ∨
    (o = 0x20 ∧ registerAt o = .param) ∨ registerAt o = .unmapped := by
  unfold registerAt
  split <;> simp

/-- Every offset by what it names (R32). -/
theorem targetOf_cases (cfg : Config) (addr : BitVec 16) :
    (addr.toNat < 0x40 ∧ targetOf cfg addr = registerAt addr.toNat) ∨
    (∃ j, addr.toNat = 0x40 + j ∧ j < 64 ∧ targetOf cfg addr = .kstage j) ∨
    (∃ j, addr.toNat = 0x8000 + j ∧ j < 0x4000 ∧ j < cfg.bufBytes ∧ targetOf cfg addr = .ibuf j) ∨
    (∃ j, addr.toNat = 0xC000 + j ∧ j < cfg.bufBytes ∧ targetOf cfg addr = .obuf j) ∨
    targetOf cfg addr = .unmapped := by
  rcases lt_or_ge addr.toNat 0x40 with h1 | h1
  · exact .inl ⟨h1, targetOf_low cfg addr h1⟩
  rcases lt_or_ge addr.toNat 0x80 with h2 | h2
  · exact .inr (.inl ⟨_, by omega, by omega, targetOf_kstage cfg addr h1 h2⟩)
  rcases lt_or_ge addr.toNat 0x8000 with h3 | h3
  · exact .inr (.inr (.inr (.inr (targetOf_gap cfg addr h2 h3))))
  rcases lt_or_ge addr.toNat 0xC000 with h4 | h4
  · rw [targetOf_ibuf cfg addr h3 h4]
    by_cases hb : addr.toNat - 0x8000 < cfg.bufBytes
    · exact .inr (.inr (.inl ⟨addr.toNat - 0x8000, by omega, by omega, hb, if_pos hb⟩))
    · exact .inr (.inr (.inr (.inr (if_neg hb))))
  · rw [targetOf_obuf cfg addr h4]
    by_cases hb : addr.toNat - 0xC000 < cfg.bufBytes
    · exact .inr (.inr (.inr (.inl ⟨addr.toNat - 0xC000, by omega, hb, if_pos hb⟩)))
    · exact .inr (.inr (.inr (.inr (if_neg hb))))

/-- A bus read of an aligned offset, by its target (R92, R95). -/
theorem busRead_ok (s : State) (addr : BitVec 16) (h : addr.toNat % 4 = 0) :
    busRead s addr =
      match targetOf s.cfg addr with
      | .id => (idValue, .okay)
      | .ctrl => (ctrlWord s, .okay)
      | .cmd => (0, .okay)
      | .status => (statusWord s, .okay)
      | .event => (eventWord s, .okay)
      | .keyLen => (s.keyLen.setWidth 32, .okay)
      | .inLen => (s.inLen.setWidth 32, .okay)
      | .outLen => (s.outLen.setWidth 32, .okay)
      | .param => (BitVec.ofNat 32 s.cfg.bufBytes, .okay)
      | .kstage _ => (0, .okay)
      | .ibuf j => (windowWord (ibufByte s) j, .okay)
      | .obuf j => (windowWord (obufByte s) j, .okay)
      | .unmapped => (0, .slverr) := by
  unfold busRead
  rw [(aligned_iff addr).mpr h]
  rfl

/-- The bytes of a little-endian word (R91). -/
theorem extractLsb'_wordOfBytesLE (b0 b1 b2 b3 : Byte) (i : Nat) (h : i < 4) :
    (wordOfBytesLE b0 b1 b2 b3).extractLsb' (8 * i) 8 = [b0, b1, b2, b3].getD i 0 := by
  unfold wordOfBytesLE
  apply BitVec.eq_of_getLsbD_eq
  intro j hj
  rw [BitVec.getLsbD_extractLsb']
  simp only [BitVec.getLsbD_append, hj, decide_true, Bool.true_and]
  interval_cases i <;> simp <;> interval_cases j <;> simp

/-- A bus write to an aligned offset with all strobes set, by its target (R92, R96). -/
theorem busWrite_ok (s : State) (addr : BitVec 16) (w : Word) (h : addr.toNat % 4 = 0) :
    busWrite s addr w 0b1111 =
      match targetOf s.cfg addr with
      | .id => (s, .okay)
      | .ctrl => (inputWrite (writeCtrl w) s, .okay)
      | .cmd => (writeCmd w s, .okay)
      | .status => (s, .okay)
      | .event => (writeEvent w s, .okay)
      | .keyLen => (inputWrite (writeKeyLen w) s, .okay)
      | .inLen => (inputWrite (writeInLen w) s, .okay)
      | .outLen => (s, .okay)
      | .param => (s, .okay)
      | .kstage j => (inputWrite (writeKstageWord j w) s, .okay)
      | .ibuf j => (inputWrite (writeIbufWord j w) s, .okay)
      | .obuf _ => (s, .okay)
      | .unmapped => (s, .slverr) := by
  unfold busWrite
  rw [(aligned_iff addr).mpr h]
  rfl

/-- A bus write that is misaligned or lacks a strobe does nothing (R92). -/
theorem busWrite_bad (s : State) (addr : BitVec 16) (w : Word) (strb : BitVec 4)
    (h : ¬ (addr.toNat % 4 = 0 ∧ strb = 0b1111)) : busWrite s addr w strb = (s, .slverr) := by
  unfold busWrite
  refine if_pos ?_
  rw [← aligned_iff] at h
  cases ha : aligned addr
  · rfl
  · simp only [ha, true_and] at h
    simpa using h

/-- A write to an input of the engine, by the phase (R98). -/
theorem inputWrite_cases (f : State → State) (s : State) :
    (s.phase = .idle ∧ inputWrite f s = f s) ∨ (s.phase ≠ .idle ∧ inputWrite f s = ignoreWrite s) := by
  by_cases h : s.phase = .idle
  · exact .inl ⟨h, inputWrite_idle f s h⟩
  · exact .inr ⟨h, inputWrite_busy f s h⟩

/-- A CMD write, by the phase (40_commands.md R150, R153). -/
theorem writeCmd_cases (w : Word) (s : State) :
    (s.phase = .idle ∧ writeCmd w s = accept w s) ∨ (s.phase ≠ .idle ∧ writeCmd w s = dropCommand s) := by
  by_cases h : s.phase = .idle
  · exact .inl ⟨h, by simp [writeCmd, (busy_eq_false s).mpr h]⟩
  · exact .inr ⟨h, by simp [writeCmd, (busy_eq_true s).mpr h]⟩

/-- What a bus write can do to the state (R93, R96): nothing; set one of the two sticky flags while busy;
accept a command while idle; clear event flags; or write one input while idle. -/
inductive BusEffect (s : State) (addr : BitVec 16) (w : Word) : State → Prop where
  | none : BusEffect s addr w s
  | ignored : s.phase ≠ .idle → BusEffect s addr w (ignoreWrite s)
  | dropped : s.phase ≠ .idle → addr = 0x0008 → BusEffect s addr w (dropCommand s)
  | accepted : s.phase = .idle → addr = 0x0008 → BusEffect s addr w (accept w s)
  | event : addr = 0x0010 → BusEffect s addr w (writeEvent w s)
  | ctrl : s.phase = .idle → addr = 0x0004 → BusEffect s addr w (writeCtrl w s)
  | keyLen : s.phase = .idle → addr = 0x0014 → BusEffect s addr w (writeKeyLen w s)
  | inLen : s.phase = .idle → addr = 0x0018 → BusEffect s addr w (writeInLen w s)
  | kstage (j : Nat) : s.phase = .idle → addr.toNat = 0x40 + j → j % 4 = 0 → j < 64 →
      BusEffect s addr w (writeKstageWord j w s)
  | ibuf (j : Nat) : s.phase = .idle → addr.toNat = 0x8000 + j → j % 4 = 0 → j < 0x4000 →
      j < s.cfg.bufBytes → BusEffect s addr w (writeIbufWord j w s)

theorem busWrite_effect (s : State) (addr : BitVec 16) (w : Word) (strb : BitVec 4) :
    BusEffect s addr w (busWrite s addr w strb).1 := by
  by_cases hok : addr.toNat % 4 = 0 ∧ strb = 0b1111
  swap
  · rw [busWrite_bad s addr w strb hok]; exact .none
  obtain ⟨hal, rfl⟩ := hok
  rw [busWrite_ok s addr w hal]
  have reg (n : Nat) (hn : n < 65536) (h : addr.toNat = n) : addr = BitVec.ofNat 16 n :=
    BitVec.eq_of_toNat_eq (by simp [h, Nat.mod_eq_of_lt hn])
  rcases targetOf_cases s.cfg addr with ⟨-, ht⟩ | ⟨j, ha, hj, ht⟩ | ⟨j, ha, hj', hj, ht⟩ | ⟨j, -, -, ht⟩ | ht
  · rw [ht]
    rcases registerAt_cases addr.toNat with ⟨-, hr⟩ | ⟨ha, hr⟩ | ⟨ha, hr⟩ | ⟨-, hr⟩ | ⟨ha, hr⟩ | ⟨ha, hr⟩ |
      ⟨ha, hr⟩ | ⟨-, hr⟩ | ⟨-, hr⟩ | hr <;> simp only [hr]
    · exact .none
    · rcases inputWrite_cases (writeCtrl w) s with ⟨hp, h⟩ | ⟨hp, h⟩ <;> rw [h]
      · exact .ctrl hp (reg _ (by decide) ha)
      · exact .ignored hp
    · rcases writeCmd_cases w s with ⟨hp, h⟩ | ⟨hp, h⟩ <;> rw [h]
      · exact .accepted hp (reg _ (by decide) ha)
      · exact .dropped hp (reg _ (by decide) ha)
    · exact .none
    · exact .event (reg _ (by decide) ha)
    · rcases inputWrite_cases (writeKeyLen w) s with ⟨hp, h⟩ | ⟨hp, h⟩ <;> rw [h]
      · exact .keyLen hp (reg _ (by decide) ha)
      · exact .ignored hp
    · rcases inputWrite_cases (writeInLen w) s with ⟨hp, h⟩ | ⟨hp, h⟩ <;> rw [h]
      · exact .inLen hp (reg _ (by decide) ha)
      · exact .ignored hp
    · exact .none
    · exact .none
    · exact .none
  · rw [ht]
    rcases inputWrite_cases (writeKstageWord j w) s with ⟨hp, h⟩ | ⟨hp, h⟩ <;> simp only [h]
    · exact .kstage j hp ha (by omega) hj
    · exact .ignored hp
  · rw [ht]
    rcases inputWrite_cases (writeIbufWord j w) s with ⟨hp, h⟩ | ⟨hp, h⟩ <;> simp only [h]
    · exact .ibuf j hp ha (by omega) hj' hj
    · exact .ignored hp
  · rw [ht]; exact .none
  · rw [ht]; exact .none

/-- The state with another list of actions to come. -/
def State.withInputs (s : State) (l : List Input) : State := { s with inputs := l }

theorem busRead_withInputs (s : State) (addr : BitVec 16) (l : List Input) :
    busRead (s.withInputs l) addr = busRead s addr := by
  unfold busRead
  cases h : targetOf s.cfg addr <;> simp only [State.withInputs, h] <;> rfl

theorem inputWrite_withInputs (f : State → State) (s : State) (l : List Input)
    (h : f (s.withInputs l) = (f s).withInputs l) :
    inputWrite f (s.withInputs l) = (inputWrite f s).withInputs l := by
  by_cases hp : s.phase = .idle
  · rw [inputWrite_idle f s hp, inputWrite_idle f (s.withInputs l) hp, h]
  · rw [inputWrite_busy f s hp, inputWrite_busy f (s.withInputs l) hp]; rfl

theorem writeCmd_withInputs (w : Word) (s : State) (l : List Input) :
    writeCmd w (s.withInputs l) = (writeCmd w s).withInputs l := by
  rcases writeCmd_cases w s with ⟨h, e⟩ | ⟨h, e⟩ <;>
    rcases writeCmd_cases w (s.withInputs l) with ⟨h', e'⟩ | ⟨h', e'⟩
  · rw [e, e']; rfl
  · exact absurd h h'
  · exact absurd h' h
  · rw [e, e']; rfl

/-- A bus write neither reads the list of actions nor changes it. -/
theorem busWrite_withInputs (s : State) (addr : BitVec 16) (w : Word) (strb : BitVec 4) (l : List Input) :
    busWrite (s.withInputs l) addr w strb =
      ((busWrite s addr w strb).1.withInputs l, (busWrite s addr w strb).2) := by
  by_cases hok : addr.toNat % 4 = 0 ∧ strb = 0b1111
  swap
  · rw [busWrite_bad (s.withInputs l) addr w strb hok, busWrite_bad s addr w strb hok]
  obtain ⟨h, rfl⟩ := hok
  rw [busWrite_ok (s.withInputs l) addr w h, busWrite_ok s addr w h]
  have hc : (s.withInputs l).cfg = s.cfg := rfl
  rw [hc]
  cases targetOf s.cfg addr <;> dsimp only <;>
    first
      | rfl
      | rw [inputWrite_withInputs _ s l rfl]
      | rw [writeCmd_withInputs w s l]

end Sys2Proof.Machine
end

