-- ==== Sys2Proof/Laws/Cbc.lean ====
section
/-! SUPPORT. Laws of the byte sequences that SEAL and OPEN handle: their lengths, and their blocks. -/

namespace Sys2Proof.Machine

theorem flatMap_unload_length (l : List Block) : (l.flatMap Block.unload).length = 16 * l.length := by
  induction l with
  | nil => rfl
  | cons b l ih => simp [List.flatMap_cons, ih]; omega

@[simp] theorem cbcEncBlocks_length (w : List Col) (cv : Block) (l : List Block) :
    (cbcEncBlocks w cv l).length = l.length := by
  induction l generalizing cv with
  | nil => rfl
  | cons b l ih => simp [cbcEncBlocks, ih]

@[simp] theorem cbcDecBlocks_length (w : List Col) (cv : Block) (l : List Block) :
    (cbcDecBlocks w cv l).length = l.length := by
  induction l generalizing cv with
  | nil => rfl
  | cons b l ih => simp [cbcDecBlocks, ih]

@[simp] theorem chunks_length (n : Nat) (s : Bytes) : (chunks n s).length = s.length / n := by
  simp [chunks]

/-- CBC encryption keeps the length of whole blocks (43_cbc_padding_compare.md R301). -/
theorem cbcE_length (k iv p : Bytes) (h : p.length % 16 = 0) : (cbcE k iv p).length = p.length := by
  rw [cbcE, flatMap_unload_length]; simp; omega

/-- CBC decryption keeps the length of whole blocks (R302). -/
theorem cbcD_length (k iv c : Bytes) (h : c.length % 16 = 0) : (cbcD k iv c).length = c.length := by
  rw [cbcD, flatMap_unload_length]; simp; omega

theorem chunks_append (b t : Bytes) (h : b.length = 16) : chunks 16 (b ++ t) = b :: chunks 16 t := by
  simp only [chunks, List.length_append, h]
  have : (16 + t.length) / 16 = t.length / 16 + 1 := by omega
  rw [this, List.range_succ_eq_map, List.map_cons, List.map_map]
  congr 1
  · simp [h]
  · apply List.map_congr_left
    intro i _
    simp only [Function.comp]
    rw [show 16 * (i + 1) = b.length + 16 * i by omega, ← List.drop_drop, List.drop_left]

/-- The blocks of concatenated blocks are those blocks. -/
theorem chunks_flatMap (l : List Block) : (chunks 16 (l.flatMap Block.unload)).map Block.load = l := by
  induction l with
  | nil => rfl
  | cons b l ih =>
    rw [List.flatMap_cons, chunks_append _ _ (Block.unload_length b), List.map_cons, ih,
      Block.load_unload]

/-- The concatenation of a sequence's blocks is the sequence, when it has whole blocks. -/
theorem flatMap_chunks (p : Bytes) (h : p.length % 16 = 0) :
    ((chunks 16 p).map Block.load).flatMap Block.unload = p := by
  induction n : p.length / 16 generalizing p with
  | zero =>
    have : p = [] := List.eq_nil_of_length_eq_zero (by omega)
    subst this; rfl
  | succ n ih =>
    have h16 : (p.take 16).length = 16 := by simp; omega
    rw [← List.take_append_drop 16 p, chunks_append _ _ h16, List.map_cons, List.flatMap_cons,
      Block.unload_load _ h16, ih (p.drop 16) (by simp; omega) (by simp; omega)]

/-- The padded length is `pad16(L)` (R303). -/
@[simp] theorem pad_length (p : Bytes) : (pad p).length = pad16 p.length := by
  simp [pad, pad16]; omega

theorem pad16_mod (l : Nat) : pad16 l % 16 = 0 := by simp [pad16]

/-- The last byte of a padded sequence is the number of bytes appended (R303, R304). -/
theorem padByte_pad (p : Bytes) : padByte (pad p) = BitVec.ofNat 8 (16 - p.length % 16) := by
  have h : 0 < 16 - p.length % 16 := by omega
  unfold padByte pad
  simp only [List.length_append, List.length_replicate]
  rw [List.getD_append_right _ _ _ _ (by omega), List.getD_eq_getElem _ _ (by simp; omega)]
  simp

theorem unpad_length_le (pp : Bytes) : (unpad pp).length ≤ pp.length := by simp [unpad]

@[simp] theorem HashWords.bytes_length (x : HashWords) : x.bytes.length = 64 := rfl

theorem bytesOfNatBE_length (n v : Nat) : (bytesOfNatBE n v).length = n := by
  induction n generalizing v with
  | zero => rfl
  | succ n ih => simp [bytesOfNatBE, ih]

theorem tagOf_length (k m : Bytes) : (tagOf k m).length = 32 := by
  have h : (hmac512 k m).length = 64 := HashWords.bytes_length _
  simp [tagOf, h]

/-- The length of a sealed record (40_commands.md R171). -/
theorem sealRecord_length (ek mk iv p : Bytes) (h : iv.length = 16) :
    (sealRecord ek mk iv p).length = 16 + pad16 p.length + 32 := by
  simp only [sealRecord, List.length_append, tagOf_length, h]
  rw [cbcE_length _ _ _ (by rw [pad_length]; exact pad16_mod _), pad_length]

@[simp] theorem RngAnswer.iv_length (a : RngAnswer) : a.iv.length = 16 := by simp [RngAnswer.iv]

/-- The fields of a record are its three parts (30_encoding.md R136). -/
theorem record_fields (iv c t : Bytes) (h : iv.length = 16) (ht : t.length = 32) :
    recordIv (iv ++ c ++ t) = iv ∧ recordCiphertext (iv ++ c ++ t) = c ∧ recordTag (iv ++ c ++ t) = t := by
  refine ⟨?_, ?_, ?_⟩
  · simp [recordIv, ← h]
  · simp only [recordCiphertext, List.length_append, h, ht, List.append_assoc]
    rw [← h, List.drop_left, List.take_append_of_le_length (by omega), List.take_of_length_le (by omega)]
  · simp only [recordTag, List.length_append, ht]
    rw [Nat.add_sub_cancel, ← List.length_append, List.drop_left]

/-- A snapshot that holds its whole input (40_commands.md R151). -/
theorem Snapshot.input_eq (cfg : Config) (snap : Snapshot)
    (h : snap.data.length = min snap.inLen.toNat cfg.bufBytes) (h2 : snap.inLen.toNat ≤ cfg.bufBytes) :
    snap.input = snap.data ∧ snap.data.length = snap.inLen.toNat := by
  have h3 : snap.data.length = snap.inLen.toNat := by omega
  exact ⟨by simp [Snapshot.input, Snapshot.length, ← h3], h3⟩

end Sys2Proof.Machine
end

