-- ==== Sys2Proof/Laws/Commands.lean ====
section
/-! SUPPORT. What one engine step of a command can do: exec is one shared operation over the effect of
each command, and each effect is one of a few completions. -/

namespace Sys2Proof.Machine

/-- The effect of a command on the state, given its snapshot. -/
def commandEffect (i : Instr) : Snapshot → State → State :=
  match i with
  | .keyLoad => completeKeyLoad
  | .keyClear => completeKeyClear
  | .sealData => stepSeal
  | .openRecord => completeOpen

theorem exec_eq_runPhase (i : Instr) (s : State) : exec i s = runPhase (commandEffect i) s := by
  cases i <;> rfl

@[simp] theorem runPhase_run (f : Snapshot → State → State) (s : State) (snap : Snapshot)
    (h : s.phase = .run snap) : runPhase f s = .next (f snap s) := by simp [runPhase, h]

@[simp] theorem runPhase_idle (f : Snapshot → State → State) (s : State)
    (h : s.phase = .idle) : runPhase f s = .next s := by simp [runPhase, h]

@[simp] theorem runPhase_rngWait (f : Snapshot → State → State) (s : State) (snap : Snapshot)
    (h : s.phase = .rngWait snap) : runPhase f s = .next s := by simp [runPhase, h]

/-- A command in phase `Run` has its effect. -/
theorem exec_run (i : Instr) (s : State) (snap : Snapshot) (h : s.phase = .run snap) :
    exec i s = .next (commandEffect i snap s) := by rw [exec_eq_runPhase, runPhase_run _ _ _ h]

/-- An illegal command in phase `Run` completes with its code (40_commands.md R190). -/
theorem execIllegal_run (s : State) (snap : Snapshot) (h : s.phase = .run snap) :
    execIllegal s = .next (complete .illegalCommand [] s 0 0) := by
  rw [execIllegal, runPhase_run _ _ _ h, fail_eq]

/-- Everything an engine step of SEAL can do (R170). -/
theorem stepSeal_cases (snap : Snapshot) (s : State) :
    (snap.keys.valid = false ∧ stepSeal snap s = complete .keyNotLoaded [] s 0 0) ∨
    (snap.keys.valid = true ∧ sealLengthOk s.cfg snap = false ∧
      stepSeal snap s = complete .lengthOutOfRange [] s 0 0) ∨
    (snap.keys.valid = true ∧ sealLengthOk s.cfg snap = true ∧ s.rng.answer = none ∧
      stepSeal snap s = requestRng snap s) ∨
    (∃ a, snap.keys.valid = true ∧ sealLengthOk s.cfg snap = true ∧ s.rng.answer = some a ∧
      a.count.val < 16 ∧ stepSeal snap s = complete .randomSourceExhausted [] s a.count a.cond) ∨
    (∃ a, snap.keys.valid = true ∧ sealLengthOk s.cfg snap = true ∧ s.rng.answer = some a ∧
      ¬ a.count.val < 16 ∧
      stepSeal snap s = complete .ok (sealRecord snap.encKey snap.macKey a.iv snap.input) s 16 0) := by
  unfold stepSeal
  cases hv : snap.keys.valid
  · simp
  cases hl : sealLengthOk s.cfg snap
  · simp
  cases ha : s.rng.answer with
  | none => simp
  | some a => 
    by_cases hc : a.count.val < 16
    · simp [completeSeal, hc]
    · simp only [completeSeal, hc, Bool.not_true, Bool.false_eq_true, if_false]
      simp [Nat.not_lt.mp hc]

/-- Everything OPEN's completion can do (R180, R405). -/
theorem completeOpen_cases (snap : Snapshot) (s : State) :
    (∃ e, e ≠ .ok ∧ e ≠ .randomSourceExhausted ∧ completeOpen snap s = complete e [] s 0 0) ∨
    (snap.keys.valid = true ∧ openLengthOk s.cfg snap = true ∧ openLongEnough snap = true ∧
      ctEq (recordTag snap.input) (expectedTag snap) = true ∧
      0 < (recordCiphertext snap.input).length ∧ (recordCiphertext snap.input).length % 16 = 0 ∧
      padOk (cbcD snap.encKey (recordIv snap.input) (recordCiphertext snap.input)) = true ∧
      completeOpen snap s =
        complete .ok (unpad (cbcD snap.encKey (recordIv snap.input) (recordCiphertext snap.input)))
          s 0 0) := by
  have hp : paddingError snap ≠ .ok ∧ paddingError snap ≠ .randomSourceExhausted := by
    unfold paddingError; split <;> simp
  unfold completeOpen completeDecrypt
  cases hv : snap.keys.valid
  · exact .inl ⟨.keyNotLoaded, by simp⟩
  cases hl : openLengthOk s.cfg snap
  · exact .inl ⟨.lengthOutOfRange, by simp⟩
  cases hs : openLongEnough snap
  · exact .inl ⟨.ciphertextTooShort, by simp⟩
  cases ht : ctEq (recordTag snap.input) (expectedTag snap)
  · exact .inl ⟨.authenticationFailed, by simp⟩
  by_cases hc : (recordCiphertext snap.input).length = 0 ∨ (recordCiphertext snap.input).length % 16 ≠ 0
  · exact .inl ⟨paddingError snap, hp.1, hp.2, by simp only [if_pos hc]; simp⟩
  cases hd : padOk (cbcD snap.encKey (recordIv snap.input) (recordCiphertext snap.input))
  · exact .inl ⟨paddingError snap, hp.1, hp.2, by simp only [if_neg hc]; simp [hd]⟩
  · refine .inr ⟨rfl, rfl, rfl, rfl, by omega, by omega, rfl, ?_⟩
    simp only [if_neg hc]
    simp [hd]

/-- Everything KEY_LOAD's completion can do (R160). -/
theorem completeKeyLoad_cases (snap : Snapshot) (s : State) :
    (snap.keyLen = 64 ∧ completeKeyLoad snap s =
      complete .ok [] (setKeys (keyStoreOf snap.kstage) (wipeKeyLen (wipeKstage s))) 0 0) ∨
    (snap.keyLen ≠ 64 ∧ completeKeyLoad snap s =
      complete .invalidKeyLength [] (setKeys KeyStore.empty (wipeKeyLen (wipeKstage s))) 0 0) := by
  unfold completeKeyLoad
  by_cases h : snap.keyLen = 64
  · exact .inl ⟨h, by simp only [if_pos h]⟩
  · exact .inr ⟨h, by simp only [if_neg h]; rfl⟩

/-- KEY_CLEAR's completion (R165). -/
theorem completeKeyClear_eq (snap : Snapshot) (s : State) :
    completeKeyClear snap s =
      complete .ok [] (setKeys KeyStore.empty (wipeKstage s)) 0 0 := rfl

/-- What the RNG port's answer does (60_exceptions.md R430). -/
theorem answerRng_cases (a : RngAnswer) (s : State) :
    (∃ snap, s.phase = .rngWait snap ∧ s.rng.pending = true ∧
      answerRng a s = { s with phase := .run snap, rng := ⟨false, some a⟩ }) ∨
    (answerRng a s = s ∧ ∀ snap, ¬ (s.phase = .rngWait snap ∧ s.rng.pending = true)) := by
  unfold answerRng
  cases hp : s.phase <;> cases hr : s.rng.pending <;> simp

end Sys2Proof.Machine
end

