-- ==== Sys2Proof/Laws/Memory.lean ====
section
/-! SUPPORT. The laws of IBUF's memory: a read after a write, and that every operation keeps the canonical
form. -/

namespace Sys2Proof.Machine

theorem Memory.read?_nil (j : Nat) : Memory.read? [] j = none := rfl

theorem Memory.read?_cons (a : Nat) (x : Byte) (m : Memory) (j : Nat) :
    Memory.read? ((a, x) :: m) j = if j = a then some x else Memory.read? m j := by
  unfold Memory.read?
  by_cases h : j = a
  · subst h; simp
  · simp [List.lookup_cons, h, beq_eq_false_iff_ne.mpr h]

/-- A read after a write to the same offset gives the byte written. -/
theorem Memory.read?_write_self (m : Memory) (j : Nat) (v : Byte) :
    (m.write j v).read? j = some v := by
  induction m with
  | nil => simp [Memory.write, read?_cons]
  | cons c m ih =>
    obtain ⟨a, x⟩ := c
    unfold Memory.write
    split
    · simp [read?_cons]
    · split
      · simp [read?_cons]
      · rename_i h; simp [read?_cons, h, ih]

/-- A write leaves every other offset alone. -/
theorem Memory.read?_write_ne (m : Memory) (j k : Nat) (v : Byte) (h : k ≠ j) :
    (m.write j v).read? k = m.read? k := by
  induction m with
  | nil => simp [Memory.write, read?_cons, h]
  | cons c m ih =>
    obtain ⟨a, x⟩ := c
    unfold Memory.write
    split
    · simp [read?_cons, h]
    · split
      · rename_i h2; subst h2; simp [read?_cons, h]
      · simp [read?_cons, ih]

theorem Memory.read?_write (m : Memory) (j k : Nat) (v : Byte) :
    (m.write j v).read? k = if k = j then some v else m.read? k := by
  by_cases h : k = j
  · subst h; simp [read?_write_self]
  · simp [read?_write_ne _ _ _ _ h, h]

/-- The canonical form of a nonempty memory: the head lies below every other offset. -/
theorem Memory.wf_cons (a : Nat) (x : Byte) (m : Memory) :
    Memory.wf ((a, x) :: m) = true ↔ (∀ c ∈ m, a < c.1) ∧ Memory.wf m = true := by
  induction m generalizing a x with
  | nil => simp [Memory.wf]
  | cons c m ih =>
    obtain ⟨b, y⟩ := c
    simp only [Memory.wf, Bool.and_eq_true, decide_eq_true_eq, List.mem_cons, forall_eq_or_imp]
    constructor
    · rintro ⟨h, hw⟩
      exact ⟨⟨h, fun c hc => lt_trans h (((ih b y).mp hw).1 c hc)⟩, hw⟩
    · rintro ⟨⟨h, -⟩, hw⟩
      exact ⟨h, hw⟩

theorem Memory.mem_write (m : Memory) (j : Nat) (v : Byte) (c : Host.Cell) (h : c ∈ m.write j v) :
    c = (j, v) ∨ c ∈ m := by
  induction m with
  | nil => simpa [Memory.write] using h
  | cons d m ih =>
    obtain ⟨a, x⟩ := d
    unfold Memory.write at h
    split at h
    · simpa using h
    · split at h
      · rcases List.mem_cons.mp h with h | h <;> simp [h]
      · rcases List.mem_cons.mp h with h | h
        · simp [h]
        · rcases ih h with h | h <;> simp [h]

/-- A write keeps the canonical form. -/
theorem Memory.wf_write (m : Memory) (j : Nat) (v : Byte) (h : m.wf = true) :
    (m.write j v).wf = true := by
  induction m with
  | nil => rfl
  | cons c m ih =>
    obtain ⟨a, x⟩ := c
    have hc := (wf_cons a x m).mp h
    unfold Memory.write
    split
    · rename_i hj
      refine (wf_cons _ _ _).mpr ⟨?_, h⟩
      intro c hcm
      rcases List.mem_cons.mp hcm with rfl | hcm
      · exact hj
      · exact lt_trans hj (hc.1 c hcm)
    · split
      · rename_i hj
        subst hj
        exact (wf_cons _ _ _).mpr hc
      · rename_i hlt hne
        refine (wf_cons _ _ _).mpr ⟨?_, ih hc.2⟩
        intro c hcm
        rcases mem_write m j v c hcm with rfl | hcm
        · simp only; omega
        · exact hc.1 c hcm

/-- A write inside the window keeps every listed offset inside it. -/
theorem Memory.within_write (m : Memory) (j n : Nat) (v : Byte) (hj : j < n)
    (h : m.within n = true) : (m.write j v).within n = true := by
  rw [Memory.within, List.all_eq_true] at *
  intro c hc
  rcases mem_write m j v c hc with rfl | hc
  · simpa using hj
  · exact h c hc

/-- Reset's memory is in the canonical form. -/
theorem Memory.wf_reset : State.reset.ibuf.wf = true := rfl

/-- IBUF's bytes after a word write (20_memory.md R91, R96). -/
theorem ibufByte_writeIbufWord (j : Nat) (w : Word) (s : State) (k : Nat) :
    ibufByte (writeIbufWord j w s) k =
      if k = j + 3 then w.extractLsb' 24 8
      else if k = j + 2 then w.extractLsb' 16 8
      else if k = j + 1 then w.extractLsb' 8 8
      else if k = j then w.extractLsb' 0 8
      else ibufByte s k := by
  simp only [ibufByte, writeIbufWord, Memory.read?_write]
  split_ifs <;> rfl

/-- A word write keeps IBUF's canonical form. -/
theorem wf_writeIbufWord (j : Nat) (w : Word) (s : State) (h : s.ibuf.wf = true) :
    (writeIbufWord j w s).ibuf.wf = true :=
  Memory.wf_write _ _ _ (Memory.wf_write _ _ _ (Memory.wf_write _ _ _ (Memory.wf_write _ _ _ h)))

/-- A word write inside IBUF keeps every listed offset inside it. -/
theorem within_writeIbufWord (j n : Nat) (w : Word) (s : State) (hj : j + 3 < n)
    (h : s.ibuf.within n = true) : (writeIbufWord j w s).ibuf.within n = true := by
  unfold writeIbufWord
  refine Memory.within_write _ _ _ _ hj ?_
  refine Memory.within_write _ _ _ _ (by omega) ?_
  refine Memory.within_write _ _ _ _ (by omega) ?_
  exact Memory.within_write _ _ _ _ (by omega) h

end Sys2Proof.Machine
end

