-- ==== Sys2Proof/Laws/PerInstr.lean ====
section
/-! SUPPORT. Statements per command, about its syntax: one lemma for each constructor. -/

/-- The word of a command has no reserved bit and an assigned opcode, and its opcode alone selects it
(30_encoding.md R131, R132). -/
def Sys2Proof.Laws.CommandWord.Statement (i : Sys2Proof.Instr) : Prop :=
  Sys2Proof.cmdFields (Sys2Proof.encode i) = i.cmdWord ∧ i.cmdWord.wf = true ∧
    Sys2Proof.decodeOp i.op = .ok i

theorem Sys2Proof.Laws.CommandWord.keyLoad : Sys2Proof.Laws.CommandWord.Statement .keyLoad := by
  unfold Sys2Proof.Laws.CommandWord.Statement; decide

theorem Sys2Proof.Laws.CommandWord.keyClear : Sys2Proof.Laws.CommandWord.Statement .keyClear := by
  unfold Sys2Proof.Laws.CommandWord.Statement; decide

theorem Sys2Proof.Laws.CommandWord.sealData : Sys2Proof.Laws.CommandWord.Statement .sealData := by
  unfold Sys2Proof.Laws.CommandWord.Statement; decide

theorem Sys2Proof.Laws.CommandWord.openRecord : Sys2Proof.Laws.CommandWord.Statement .openRecord := by
  unfold Sys2Proof.Laws.CommandWord.Statement; decide
end

