-- ==== Sys2Proof/Laws/Step.lean ====
section
/-! SUPPORT. What one step can do. -/

namespace Sys2Proof.Machine

/-- The effect of the command in a snapshot, the illegal command among them. -/
def runEffect (snap : Snapshot) (s : State) : State :=
  match decode snap.cmd with
  | .ok i => commandEffect i snap s
  | .error _ => complete .illegalCommand [] s 0 0

theorem runCommand_run (s : State) (snap : Snapshot) (h : s.phase = .run snap) :
    runCommand snap s = .next (runEffect snap s) := by
  unfold runCommand runEffect
  cases decode snap.cmd with
  | ok i => exact exec_run i s snap h
  | error e => exact execIllegal_run s snap h

/-- The state after one clock cycle (70_reset_and_hazards.md R470). -/
def cycleEffect (s : State) : State :=
  match s.phase with
  | .idle => s
  | .rngWait _ => s
  | .run snap => if 1 < s.cyclesLeft then { s with cyclesLeft := s.cyclesLeft - 1 } else runEffect snap s

/-- A clock cycle always gives a next state. -/
theorem clockCycle_eq (s : State) : clockCycle s = .next (cycleEffect s) := by
  unfold clockCycle cycleEffect
  cases h : s.phase with
  | idle => rfl
  | rngWait snap => rfl
  | run snap =>
    dsimp only
    split
    · rfl
    · exact runCommand_run s snap h

/-- Everything a clock cycle can do. -/
theorem cycleEffect_cases (s : State) :
    cycleEffect s = s ∨
    (∃ snap, s.phase = .run snap ∧ 1 < s.cyclesLeft ∧
      cycleEffect s = { s with cyclesLeft := s.cyclesLeft - 1 }) ∨
    (∃ snap i, s.phase = .run snap ∧ decode snap.cmd = .ok i ∧ cycleEffect s = commandEffect i snap s) ∨
    (∃ snap e, s.phase = .run snap ∧ decode snap.cmd = .error e ∧
      cycleEffect s = complete .illegalCommand [] s 0 0) := by
  unfold cycleEffect runEffect
  cases h : s.phase with
  | idle => simp
  | rngWait snap => simp
  | run snap =>
    dsimp only
    split
    · rename_i hc
      exact .inr (.inl ⟨snap, rfl, hc, rfl⟩)
    · cases hd : decode snap.cmd with
      | ok i => exact .inr (.inr (.inl ⟨snap, i, rfl, hd, rfl⟩))
      | error e => exact .inr (.inr (.inr ⟨snap, e, rfl, hd, rfl⟩))

/-- Everything one step can do: a clock cycle, or one action from the front of the list, on the state
without it (20_memory.md R102; 30_encoding.md R139). -/
theorem step_cases {s t : State} (h : step s = .next t) :
    (s.inputs = [] ∧ t = cycleEffect s) ∨
    (∃ rest, s.inputs = .clock :: rest ∧ t = cycleEffect { s with inputs := rest }) ∨
    (∃ addr rest, s.inputs = .busRead addr :: rest ∧
      t = { s with inputs := rest, reply := some (.read (busRead s addr).1 (busRead s addr).2) }) ∨
    (∃ addr w strb rest, s.inputs = .busWrite addr w strb :: rest ∧
      t = { (busWrite { s with inputs := rest } addr w strb).1 with
        reply := some (.write (busWrite { s with inputs := rest } addr w strb).2) }) ∨
    (∃ addr mask val rest, s.inputs = .poll addr mask val :: rest ∧
      (t = { s with inputs := rest, reply := some (.read (busRead s addr).1 (busRead s addr).2) } ∨
       t = cycleEffect { s with reply := some (.read (busRead s addr).1 (busRead s addr).2) })) ∨
    (∃ a rest, s.inputs = .rngAnswer a :: rest ∧ t = answerRng a { s with inputs := rest }) ∨
    (∃ rest, s.inputs = .reset :: rest ∧ t = State.resetWith s.cfg (s.resets + 1) rest) := by
  unfold step advance at h
  cases hi : s.inputs with
  | nil =>
    rw [hi] at h
    simp only [clockCycle_eq] at h
    cases h
    exact .inl ⟨rfl, rfl⟩
  | cons i rest =>
    rw [hi] at h
    cases i with
    | clock =>
      simp only [applyInput, clockCycle_eq] at h
      cases h
      exact .inr (.inl ⟨rest, rfl, rfl⟩)
    | busRead addr =>
      cases h
      exact .inr (.inr (.inl ⟨addr, rest, rfl, rfl⟩))
    | busWrite addr w strb =>
      cases h
      exact .inr (.inr (.inr (.inl ⟨addr, w, strb, rest, rfl, rfl⟩)))
    | poll addr mask val =>
      refine .inr (.inr (.inr (.inr (.inl ⟨addr, mask, val, rest, rfl, ?_⟩))))
      simp only [applyInput] at h
      split at h
      · cases h
        exact .inl rfl
      · rw [clockCycle_eq] at h
        cases h
        refine .inr ?_
        rw [← hi]
        rfl
    | rngAnswer a =>
      cases h
      exact .inr (.inr (.inr (.inr (.inr (.inl ⟨a, rest, rfl, rfl⟩)))))
    | reset =>
      cases h
      exact .inr (.inr (.inr (.inr (.inr (.inr ⟨rest, rfl, rfl⟩)))))

/-- A command's own step neither reads the list of actions nor changes it. -/
theorem runEffect_withInputs (snap : Snapshot) (s : State) (l : List Input) :
    runEffect snap (s.withInputs l) = (runEffect snap s).withInputs l := by
  unfold runEffect
  cases decode snap.cmd with
  | error e => rfl
  | ok i =>
    cases i <;> simp only [commandEffect]
    · unfold completeKeyLoad; dsimp only; split <;> rfl
    · rfl
    · unfold stepSeal
      rw [show (s.withInputs l).cfg = s.cfg from rfl, show (s.withInputs l).rng = s.rng from rfl]
      cases snap.keys.valid
      · rfl
      cases sealLengthOk s.cfg snap
      · rfl
      cases s.rng.answer with
      | none => rfl
      | some a =>
        by_cases hc : a.count.val < 16 <;> simp only [completeSeal, hc, if_true, if_false] <;> rfl
    · unfold completeOpen completeDecrypt
      rw [show (s.withInputs l).cfg = s.cfg from rfl]
      cases snap.keys.valid
      · rfl
      cases openLengthOk s.cfg snap
      · rfl
      cases openLongEnough snap
      · rfl
      cases ctEq (recordTag snap.input) (expectedTag snap)
      · rfl
      by_cases hl : (recordCiphertext snap.input).length = 0 ∨ (recordCiphertext snap.input).length % 16 ≠ 0
      · simp only [hl, if_true]; rfl
      simp only [hl, if_false]
      generalize cbcD snap.encKey (recordIv snap.input) (recordCiphertext snap.input) = pp
      cases padOk pp <;> rfl

/-- A clock cycle neither reads the list of actions nor changes it. -/
theorem cycleEffect_withInputs (s : State) (l : List Input) :
    cycleEffect (s.withInputs l) = (cycleEffect s).withInputs l := by
  have hp : (s.withInputs l).phase = s.phase := rfl
  unfold cycleEffect
  rw [hp]
  cases s.phase with
  | idle => rfl
  | rngWait snap => rfl
  | run snap =>
    dsimp only
    have hc : (s.withInputs l).cyclesLeft = s.cyclesLeft := rfl
    rw [hc]
    split
    · rfl
    · exact runEffect_withInputs snap s l

end Sys2Proof.Machine
end

