-- ==== Sys2Proof/Machine/HostNotation.lean ====
section
/-! DEFINITION. The notation of host programs (30_encoding.md R139, R140) as lists of actions from
outside, for tests and for anyone who runs the programs of 95_test_vectors.md. -/

namespace Sys2Proof.Machine

/-- `W off, val` (R139). -/
def hostW (off : BitVec 16) (val : Word) : Input := .busWrite off val 0b1111

/-- `R off` (R139). -/
def hostR (off : BitVec 16) : Input := .busRead off

/-- `POLL off, mask, val` (R139). -/
def hostPoll (off : BitVec 16) (mask val : Word) : Input := .poll off mask val

/-- `CMD_KEY_LOAD`, `CMD_KEY_CLEAR`, `CMD_SEAL`, `CMD_OPEN` (R140). -/
def hostCmd (i : Instr) : Input := hostW 0x0008 (encode i)

/-- `WAIT`: until BUSY = 0 (R140). -/
def hostWait : Input := hostPoll 0x000C 1 0

/-- `ACK`: clear DONE, CMD_DROPPED and WR_IGNORED (R140). -/
def hostAck : Input := hostW 0x0010 7

/-- `word_i(s)`: the little-endian word of bytes `s[4i..4i+3]`, bytes past the end as 0 (R140). -/
def wordAt (s : Bytes) (i : Nat) : Word :=
  wordOfBytesLE (s.getD (4 * i) 0) (s.getD (4 * i + 1) 0) (s.getD (4 * i + 2) 0) (s.getD (4 * i + 3) 0)

/-- The number of words that hold `n` bytes. -/
def wordCount (n : Nat) : Nat := (n + 3) / 4

/-- `PUTKEY k` (R140). -/
def hostPutKey (k : Bytes) : List Input :=
  (List.range 16).map (fun i => hostW (BitVec.ofNat 16 (0x0040 + 4 * i)) (wordAt k i)) ++ [hostW 0x0014 0x40]

/-- `PUT d` (R140). -/
def hostPut (d : Bytes) : List Input :=
  (List.range (wordCount d.length)).map
    (fun i => hostW (BitVec.ofNat 16 (0x8000 + 4 * i)) (wordAt d i)) ++
  [hostW 0x0018 (BitVec.ofNat 32 d.length)]

/-- `GET` of an output of `n` bytes (R140): the host reads OUT_LEN, which gave `n`, then the OBUF words. -/
def hostGet (n : Nat) : List Input :=
  hostR 0x001C :: (List.range (wordCount n)).map (fun i => hostR (BitVec.ofNat 16 (0xC000 + 4 * i)))

end Sys2Proof.Machine
end

