-- ==== Sys2Proof/Tests/Slice0.lean ====
section
/-! SUPPORT. Tests: the words of 30_encoding.md, vectors of 95_test_vectors.md (named V-... there), and for
every obligation with hypotheses a witness, a concrete state that meets them. -/

namespace Sys2Proof.Tests

open Sys2Proof Sys2Proof.Machine

set_option Elab.async false

/-! ## Concrete states -/

/-- The key `K = 000102..3f` in KSTAGE. -/
def kstageK : Vector Byte 64 := Vector.ofFn fun i => BitVec.ofNat 8 i.val

/-- The key store that holds `K`. -/
def keysK : KeyStore :=
  ⟨Vector.ofFn fun i => BitVec.ofNat 8 i.val, Vector.ofFn fun i => BitVec.ofNat 8 (32 + i.val), true⟩

/-- `000102..1f`. -/
def encK : Bytes := (List.range 32).map fun i => BitVec.ofNat 8 i

/-- `202122..3f`. -/
def macK : Bytes := (List.range 32).map fun i => BitVec.ofNat 8 (32 + i)

/-- `a0a1..af`. -/
def ivA : Bytes := (List.range 16).map fun i => BitVec.ofNat 8 (0xa0 + i)

/-- The RNG answer `(n, c, a0a1..af)`. -/
def answerA (n : Fin 17) (c : BitVec 2) : RngAnswer :=
  ⟨n, c, Vector.ofFn fun i => BitVec.ofNat 8 (0xa0 + i.val)⟩

/-- The reset state with the host's bytes in IBUF and their number in IN_LEN. -/
def loaded (d : Bytes) (s : State) : State :=
  { s with
    ibuf := (List.range d.length).map fun j => (j, d.getD j 0)
    inLen := BitVec.ofNat 16 d.length }

/-- The reset state with `K` in the key store. -/
def keyed : State := { State.reset with keys := keysK }

/-- The reset state with `K` in KSTAGE and a key length. -/
def staged (n : BitVec 16) : State := { State.reset with kstage := kstageK, keyLen := n }

/-- `"test"`. -/
def plain : Bytes := [0x74, 0x65, 0x73, 0x74]

/-- V-S1's ciphertext. -/
def cipherS1 : Bytes :=
  [0xc1, 0xd6, 0x8f, 0xe1, 0x59, 0x58, 0xc4, 0x20, 0x03, 0x18, 0x12, 0x55, 0x63, 0x60, 0xf1, 0x51]

/-- V-S1's tag. -/
def tagS1 : Bytes :=
  [0xfc, 0xa7, 0x8c, 0xa2, 0x26, 0xfe, 0x1d, 0xb6, 0x42, 0xa7, 0x18, 0xe0, 0xb3, 0x8b, 0x17, 0xd8,
   0xbe, 0xda, 0x6b, 0x08, 0xf6, 0x7a, 0xa1, 0xaa, 0xe4, 0x07, 0xb4, 0x65, 0x94, 0x3d, 0xf0, 0x8c]

/-- V-S1's record. -/
def recordS1 : Bytes := ivA ++ cipherS1 ++ tagS1

/-- V-O3's record: V-S1's with byte 63 xor 01. -/
def recordO3 : Bytes := recordS1.set 63 0x8d

/-- V-O5's record. -/
def recordO5 : Bytes := ivA ++ bytesOfNatBE 32
  0x9d4c82b08f8eb177a9d7a52b7e4c2e1ce30eda17711ad6678272dcb8db597d53

/-- V-O9's ciphertext. -/
def cipherO9 : Bytes := bytesOfNatBE 16 0x3ebb657e2a2c49b7ec007b4d87558cdc

/-- V-O9's tag. -/
def tagO9 : Bytes := bytesOfNatBE 32 0x7826de9c711ab662c95dcc5f24fa502b84c4bb3be15a3653454340171be5e931

/-- V-O9's record. -/
def recordO9 : Bytes := ivA ++ cipherO9 ++ tagO9

/-- A state whose next step runs the command word `w` accepted in `s`. -/
def running (w : Word) (s : State) : State := placeCommand w s

/-- The snapshot of `running w s`. -/
def snapOf (w : Word) (s : State) : Snapshot := takeSnapshot s (cmdFields w)

/-- SEAL of `"test"` under `K`, with an answer of the RNG port. -/
def sealing (a : RngAnswer) : State :=
  { running 0x3 (loaded plain keyed) with rng := ⟨false, some a⟩ }

/-- OPEN of a record under `K`, with a value of STRICT. -/
def opening (r : Bytes) (strict : Bool) : State :=
  running 0x4 { loaded r keyed with ctrlStrict := strict }

/-- The snapshot of `opening r strict`. -/
def openSnap (r : Bytes) (strict : Bool) : Snapshot :=
  snapOf 0x4 { loaded r keyed with ctrlStrict := strict }

/-- The reset state with actions to come. -/
def facing (l : List Input) : State := { State.reset with inputs := l }

/-- A busy block: KEY_LOAD accepted, with actions to come. -/
def busyFacing (l : List Input) : State := { running 0x1 (staged 64) with inputs := l }

/-- A SEAL that waits for the RNG port, with actions to come. -/
def waiting (l : List Input) : State :=
  { requestRng (snapOf 0x3 (loaded plain keyed)) (running 0x3 (loaded plain keyed)) with inputs := l }

/-- The state a step or a command gives; the given one where it stops, which it never does. -/
def after (s : State) (o : Host.Outcome State Fault Refusal) : State :=
  match o with
  | .next t => t
  | .fault _ => s
  | .refused _ => s

/-! ## Well-formedness and decoding (30_encoding.md R130 to R133) -/

theorem test_wf_op_zero : (CmdWord.mk 0 0x0).wf = false ∧ opAssigned 0x0 = false := by decide

theorem test_wf_op_five : (CmdWord.mk 0 0x5).wf = false ∧ opAssigned 0x5 = false := by decide

theorem test_wf_reserved : (CmdWord.mk 1 0x3).wf = false ∧ rsvZero 1 = false := by decide

theorem test_wf_commands : Instr.keyLoad.wf = true ∧ Instr.keyClear.wf = true ∧
    Instr.sealData.wf = true ∧ Instr.openRecord.wf = true := by decide

theorem test_decode_key_load :
    decode 0b00000000000000000000000000000001 = .ok .keyLoad := by decide

theorem test_decode_key_clear :
    decode 0b00000000000000000000000000000010 = .ok .keyClear := by decide

theorem test_decode_seal : decode 0b00000000000000000000000000000011 = .ok .sealData := by decide

theorem test_decode_open : decode 0b00000000000000000000000000000100 = .ok .openRecord := by decide

theorem test_decode_illegal : decode 0b00000000000000000000000000000101 = .error .opReserved ∧
    decode 0b00000000000000000000000000010011 = .error .reservedNotZero ∧
    decode 0b00000000000000000000000000000000 = .error .opReserved ∧
    decodeBytes [0x01, 0x00, 0x00] = .error .truncated := by decide

/-- R131's rows, as the opcode table numbers their bits. -/
theorem test_decode_table : decodeTableWord 32 1 = some .keyLoad ∧ decodeTableWord 32 2 = some .keyClear ∧
    decodeTableWord 32 3 = some .sealData ∧ decodeTableWord 32 4 = some .openRecord ∧
    decodeTableWord 32 5 = none := by decide

/-! ## The commands (95_test_vectors.md 2.4 to 2.7) -/

/-- V-K3. -/
theorem test_key_load : (let t := after State.reset (step ((staged 64).withFetchWord 32 1))
    statusWord t = 0x00010002 ∧ t.keys = keysK ∧ t.keyLen = 0) := by decide +kernel

/-- V-K1. -/
theorem test_key_load_short : (let t := after State.reset (step ((staged 63).withFetchWord 32 1))
    statusWord t = 0x00010010 ∧ t.keyLen = 0 ∧ t.kstage = Vector.replicate 64 0) := by decide +kernel

/-- V-K7. -/
theorem test_key_clear : (let t := after State.reset (step (keyed.withFetchWord 32 2))
    statusWord t = 0x00020000 ∧ t.keys = KeyStore.empty) := by decide +kernel

/-- V-I4. -/
theorem test_illegal_before_no_key :
    statusWord (after State.reset (step (running 0x80000004 State.reset))) = 0x00040070 := by decide +kernel

/-- V-I2: the key store stays and the RNG port is not asked. -/
theorem test_illegal_reserved : (let t := after State.reset (step (running 0x13 keyed))
    statusWord t = 0x00030072 ∧ t.rng = RngPort.quiet ∧ t.outLen = 0) := by decide +kernel

/-- V-S7: no key and no RNG request. -/
theorem test_seal_no_key : (let t := after State.reset (step (running 0x3 (loaded plain State.reset)))
    statusWord t = 0x00030060 ∧ t.rng = RngPort.quiet) := by decide +kernel

/-- V-R2. -/
theorem test_seal_short_read : (let t := after State.reset (step (sealing (answerA 8 2)))
    statusWord t = 0x00032222 ∧ t.outLen = 0) := by decide +kernel

/-- The first engine step of SEAL asks the RNG port; P4 reads STATUS 0x00030003 meanwhile. -/
theorem test_seal_asks : (let t := after State.reset (step (running 0x3 (loaded plain keyed)))
    statusWord t = 0x00030003 ∧ t.rng.pending = true) := by decide +kernel

/-- V-O14: a record one byte too long. -/
theorem test_open_too_long : statusWord (after State.reset
    (step (running 0x4 { keyed with inLen := 4097 }))) = 0x00040082 := by decide +kernel

/-- V-O11: the first 31 bytes of V-S1. -/
theorem test_open_too_short : statusWord (after State.reset
    (step (opening (recordS1.take 31) true))) = 0x00040032 := by decide +kernel

/-! ## The units (95_test_vectors.md 2.1 to 2.3) -/

/-- V-A1 (FIPS-197 C.3). -/
theorem test_aes_encrypt : aesE encK (bytesOfNatBE 16 0x00112233445566778899aabbccddeeff) =
    bytesOfNatBE 16 0x8ea2b7ca516745bfeafc49904b496089 := by decide +kernel

/-- V-A2. -/
theorem test_aes_decrypt : aesD encK (bytesOfNatBE 16 0x8ea2b7ca516745bfeafc49904b496089) =
    bytesOfNatBE 16 0x00112233445566778899aabbccddeeff := by decide +kernel

/-- V-A5, the words 8 and 59. -/
theorem test_key_expansion : ((keyExpansion encK).map Col.bytes).getD 8 [] = [0xa5, 0x73, 0xc2, 0x9f] ∧
    ((keyExpansion encK).map Col.bytes).getD 59 [] = [0x6d, 0x68, 0xde, 0x36] ∧
    (keyExpansion encK).length = 60 := by decide +kernel

/-- V-A6. -/
theorem test_mix_column : mixColumn ⟨0xdb, 0x13, 0x53, 0x45⟩ = ⟨0x8e, 0x4d, 0xa1, 0xbc⟩ ∧
    invMixColumn ⟨0x8e, 0x4d, 0xa1, 0xbc⟩ = ⟨0xdb, 0x13, 0x53, 0x45⟩ := by decide

/-- V-A7. -/
theorem test_sbox : sbox 0x00 = 0x63 ∧ sbox 0x53 = 0xed ∧ invSbox 0x63 = 0x00 := by decide

/-- R252: `K[0]`, `K[19]`, `K[20]`, `K[59]`, `K[79]`. -/
theorem test_round_constants : roundConstants.length = 80 ∧
    [0, 19, 20, 59, 79].map (fun i => roundConstants.getD i 0) =
      [0x428a2f98d728ae22, 0x240ca1cc77ac9c65, 0x2de92c6f592b0275, 0x8cc702081a6439ec,
       0x6c44198c4a475817] := by decide

/-- V-H3 and V-H4: 111 bytes fit one block, 112 take two. -/
theorem test_sha512_blocks : (chunks 128 (shaPad (List.replicate 111 0x61))).length = 1 ∧
    (chunks 128 (shaPad (List.replicate 112 0x61))).length = 2 := by decide +kernel

/-- V-C1 and V-C2. -/
theorem test_cbc : (let c := bytesOfNatBE 32 0x224c27f4ba378b27d3d6888adced64425830cb2973f008c46e64c4e1ca612106
    cbcE encK ivA encK = c ∧ cbcD encK ivA c = encK) := by decide +kernel

/-- V-P1, rows 0, 4 and 16. -/
theorem test_pad : pad [] = List.replicate 16 0x10 ∧
    pad (List.replicate 4 0x41) = List.replicate 4 0x41 ++ List.replicate 12 0x0c ∧
    pad (List.replicate 16 0x41) = List.replicate 16 0x41 ++ List.replicate 16 0x10 := by decide

/-- V-P2. -/
theorem test_pad_ok : [[0x00], [0x11], [0x03, 0x02], [0x02, 0x03], [0x02, 0x02]].map
    (fun l => padOk (List.replicate (16 - l.length) 0x00 ++ l)) = [false, false, false, false, true] ∧
    padOk (List.replicate 16 0x10) = true ∧ unpad (List.replicate 16 0x10) = [] := by decide +kernel

/-- V-Q1. -/
theorem test_comparator : ctEq (List.replicate 32 0) (List.replicate 32 0) = true ∧
    ctEq (List.replicate 32 0) (List.replicate 31 0 ++ [0x01]) = false ∧
    ctEq (0x80 :: List.replicate 31 0) (List.replicate 32 0) = false := by decide

/-! ## The bus (95_test_vectors.md 2.8) -/

/-- V-B1, V-B7, V-B9, V-B2, V-B5. -/
theorem test_bus_reads : busRead State.reset 0x0000 = (0x45544D31, .okay) ∧
    busRead State.reset 0x0020 = (0x00001000, .okay) ∧ busRead State.reset 0x0004 = (0x00000001, .okay) ∧
    busRead State.reset 0x0002 = (0, .slverr) ∧ busRead State.reset 0x9000 = (0, .slverr) := by decide

/-- V-B6: KSTAGE is write-only. -/
theorem test_bus_kstage : busRead (staged 64) 0x0040 = (0, .okay) := by decide +kernel

/-- V-B3, V-B4, V-B8. -/
theorem test_bus_writes : busWrite State.reset 0x8000 0x000000ff 0b0001 = (State.reset, .slverr) ∧
    busWrite State.reset 0x0024 1 0b1111 = (State.reset, .slverr) ∧
    busWrite State.reset 0xC000 1 0b1111 = (State.reset, .okay) := ⟨rfl, rfl, rfl⟩

/-- V-B10. -/
theorem test_bus_event : (busRead (busWrite
    { State.reset with evDone := true, evCmdDropped := true, evWrIgnored := true } 0x0010 0x2 0b1111).1
    0x0010).1 = 0x5 := by decide

/-- P1: the first word of K lands in KSTAGE's first four bytes, lowest first. -/
theorem test_bus_key_word : (busWrite State.reset 0x0040 0x03020100 0b1111).1.kstage.toList.take 5 =
    [0x00, 0x01, 0x02, 0x03, 0x00] := by decide +kernel

/-- P2: a word written to IBUF reads back; V-S1's OBUF words 0 and 15 are read. -/
theorem test_bus_windows :
    busRead (busWrite State.reset 0x8004 0xa7a6a5a4 0b1111).1 0x8004 = (0xa7a6a5a4, .okay) ∧
    (let t := { State.reset with obuf := recordS1, outLen := 64 }
     busRead t 0xC000 = (0xa3a2a1a0, .okay) ∧ busRead t 0xC03C = (0x8cf03d94, .okay) ∧
     busRead t 0xC040 = (0, .okay)) := by decide +kernel

/-- P4: while a SEAL waits, IN_LEN is not written, a second command is dropped, and EVENT reads 6. -/
theorem test_bus_busy : (let s := waiting []
    let t := (busWrite (busWrite s 0x0018 0x10 0b1111).1 0x0008 0x4 0b1111).1
    t.inLen = 4 ∧ busRead t 0x0010 = (6, .okay) ∧ busRead t 0x000C = (0x00030003, .okay)) := by
  decide +kernel

/-- R139, R140: WAIT on a running KEY_CLEAR polls while the command completes, and then sees BUSY = 0. -/
theorem test_wait : (let s := { running 0x2 keyed with inputs := [hostWait] }
    let t := after s (step s)
    t.inputs = [hostWait] ∧ t.evDone = true ∧ (after t (step t)).inputs = []) := by decide +kernel

/-- The command words a host program writes (R140). -/
theorem test_host_commands : hostCmd .openRecord = .busWrite 0x0008 0x00000004 0b1111 ∧
    hostAck = .busWrite 0x0010 0x00000007 0b1111 ∧ wordAt plain 0 = 0x74736574 ∧
    (hostPutKey encK).length = 17 ∧ (hostPut plain).length = 2 ∧ (hostGet 5).length = 3 := by decide

/-! ## Witnesses: for every obligation with hypotheses, a state and operands that meet them -/

theorem test_witness_step_runs : (running 0x2 keyed).phase = .run (snapOf 0x2 keyed) ∧
    (running 0x2 keyed).cyclesLeft ≤ 1 ∧ decode (snapOf 0x2 keyed).cmd = .ok .keyClear ∧
    (running 0x2 keyed).inputs = [] ∧
    ({ running 0x2 keyed with inputs := [.clock] } : State).inputs = .clock :: [] :=
  ⟨rfl, by decide, rfl, rfl, rfl⟩

/-- R133 at each of its ends: OP 0x0, OP 0x5, OP 0xF, and RSV not zero. -/
theorem test_witness_illegal : ∀ w ∈ [(0x0 : Word), 0x5, 0xF, 0x13, 0x80000004],
    (running w keyed).phase = .run (snapOf w keyed) ∧ (running w keyed).cyclesLeft ≤ 1 ∧
    (running w keyed).inputs = [] ∧
    ((snapOf w keyed).word.rsv ≠ 0 ∨ (snapOf w keyed).word.op = 0x0 ∨ 0x5 ≤ (snapOf w keyed).word.op) := by
  intro w hw
  refine ⟨rfl, le_refl 1, rfl, ?_⟩
  fin_cases hw <;> decide

theorem test_witness_cmd_idle : (facing [.busWrite 0x0008 0x5 0b1111]).phase = .idle ∧
    (facing [.busWrite 0x0008 0x5 0b1111]).inputs = .busWrite 0x0008 0x5 0b1111 :: [] := ⟨rfl, rfl⟩

theorem test_witness_cmd_busy : (busyFacing [.busWrite 0x0008 0x3 0b1111]).phase ≠ .idle ∧
    (busyFacing [.busWrite 0x0008 0x3 0b1111]).inputs = .busWrite 0x0008 0x3 0b1111 :: [] :=
  ⟨by decide +kernel, rfl⟩

/-- The offsets of each clause, windows at both ends. -/
theorem test_witness_ignored : (busyFacing []).phase ≠ .idle ∧
    (∀ a ∈ [(0x0004 : BitVec 16), 0x0014, 0x0018, 0x0040, 0x007C, 0x8000, 0x8FFC],
      a.toNat % 4 = 0 ∧ (a = 0x0004 ∨ a = 0x0014 ∨ a = 0x0018 ∨ (0x40 ≤ a.toNat ∧ a.toNat ≤ 0x7F) ∨
        (0x8000 ≤ a.toNat ∧ a.toNat ≤ 0xBFFF ∧ a.toNat - 0x8000 < (busyFacing []).cfg.bufBytes))) ∧
    (∀ a ∈ [(0x0010 : BitVec 16), 0x0000, 0x000C, 0x001C, 0x0020], a.toNat % 4 = 0) :=
  ⟨by decide +kernel, by intro a ha; fin_cases ha <;> decide, by intro a ha; fin_cases ha <;> decide⟩

theorem test_witness_misaligned : (0x0002 : BitVec 16).extractLsb' 0 2 ≠ 0 ∧
    ((0x8000 : BitVec 16).extractLsb' 0 2 ≠ 0 ∨ (0b0001 : BitVec 4) ≠ 0b1111) := by decide

/-- The unmapped offsets at both ends of each range, and a misaligned write answered SLVERR. -/
theorem test_witness_unmapped : (∀ a ∈ [(0x0024 : BitVec 16), 0x003C, 0x0080, 0x7FFC, 0x9000, 0xBFFC, 0xD000, 0xFFFC],
    (0x24 ≤ a.toNat ∧ a.toNat ≤ 0x3F) ∨ (0x80 ≤ a.toNat ∧ a.toNat ≤ 0x7FFF) ∨
    (0x8000 ≤ a.toNat ∧ a.toNat ≤ 0xBFFF ∧ State.reset.cfg.bufBytes ≤ a.toNat - 0x8000) ∨
    (0xC000 ≤ a.toNat ∧ State.reset.cfg.bufBytes ≤ a.toNat - 0xC000)) ∧
    (busWrite State.reset 0x0006 1 0b1111).2 = .slverr :=
  ⟨by intro a ha; fin_cases ha <;> decide, by decide⟩

/-- A read, a write, a poll that sees its value and one that does not; a KEY_LEN write; an EVENT write. -/
theorem test_witness_bus_access : (facing [.busRead 0x8000]).inputs = .busRead 0x8000 :: [] ∧
    (facing [.busWrite 0x0018 4 0b1111]).inputs = .busWrite 0x0018 4 0b1111 :: [] ∧
    (facing [hostWait]).inputs = .poll 0x000C 1 0 :: [] ∧
    (busRead (facing [hostWait]) 0x000C).1 &&& 1 = 0 ∧
    (busyFacing [hostWait]).inputs = .poll 0x000C 1 0 :: [] ∧
    (busRead (busyFacing [hostWait]) 0x000C).1 &&& 1 ≠ 0 ∧
    busWrite State.reset 0x0014 0x40 0b1111 = (writeKeyLen 0x40 State.reset, .okay) ∧
    busWrite State.reset 0x0010 0x7 0b1111 = (writeEvent 0x7 State.reset, .okay) ∧
    ¬ ((0x0014 : BitVec 16) = 0x0008 ∧ State.reset.phase = .idle) :=
  ⟨rfl, rfl, rfl, by decide, rfl, by decide +kernel, rfl, rfl, by decide⟩

theorem test_witness_config : State.reset.cfg.legal = true ∧
    (Config.mk 64 [] [] []).legal = true ∧ (Config.mk 16384 [] [] []).legal = true := by decide

theorem test_witness_idle : State.reset.phase = .idle := rfl

/-- Words that differ only in reserved bits. -/
theorem test_witness_reserved_bits :
    (0xFFFFFFFF : Word).extractLsb' 0 2 = (0x00000003 : Word).extractLsb' 0 2 ∧
    (0xFFFFFFFF : Word).extractLsb' 0 3 = (0x00000007 : Word).extractLsb' 0 3 ∧
    (0xFFFF0040 : Word).extractLsb' 0 16 = (0x00000040 : Word).extractLsb' 0 16 ∧
    (0x00000013 : Word).extractLsb' 4 28 ≠ 0 := by decide

/-- The last words of KSTAGE and of IBUF and OBUF, in an idle block. -/
theorem test_witness_windows : 15 < 16 ∧ State.reset.phase = .idle ∧ State.reset.cfg.legal = true ∧
    4 * 1023 < State.reset.cfg.bufBytes := by decide

/-- Two states with different keys, alike on the bus. -/
theorem test_witness_bus_agree : State.busAgree keyed
    { keyed with keys := { keysK with encKey := Vector.replicate 32 0 } } ∧
    keyed ≠ { keyed with keys := { keysK with encKey := Vector.replicate 32 0 } } := by
  refine ⟨⟨rfl, rfl, rfl, rfl, rfl, rfl, rfl, rfl, rfl, rfl, rfl, rfl, rfl, rfl, rfl, rfl, rfl, rfl⟩, ?_⟩
  decide +kernel

theorem test_witness_irq : (0x1 : Word).getLsbD 0 = true ∧ (0x1 : Word).getLsbD 1 = false ∧
    State.reset.phase = .idle := by decide

/-- KEY_LOAD with KEY_LEN 64, 63 and 65. -/
theorem test_witness_key_load : (running 0x1 (staged 64)).phase = .run (snapOf 0x1 (staged 64)) ∧
    (snapOf 0x1 (staged 64)).keyLen = 64 ∧
    (running 0x1 (staged 63)).phase = .run (snapOf 0x1 (staged 63)) ∧
    (snapOf 0x1 (staged 63)).keyLen ≠ 64 ∧ (snapOf 0x1 (staged 65)).keyLen ≠ 64 :=
  ⟨rfl, rfl, rfl, by decide, by decide⟩

theorem test_witness_key_clear : (running 0x2 keyed).phase = .run (snapOf 0x2 keyed) := rfl

/-- A step that sets key_valid, one that removes a key, and a reset that does. -/
theorem test_witness_key_store :
    (let s := running 0x1 (staged 64)
     let t := after s (step s)
     t.keys ≠ s.keys ∧ s.keys.valid = false ∧ t.keys.valid = true) ∧
    (let s := running 0x2 keyed
     (after s (step s)).keys ≠ s.keys) ∧
    (let s := { keyed with inputs := [.reset] }
     (after s (step s)).keys ≠ s.keys) := by decide +kernel

/-- SEAL before its answer, at the greatest legal length. -/
theorem test_witness_seal_asks : (let s := { keyed with inLen := 4047 }
    (running 0x3 s).phase = .run (snapOf 0x3 s) ∧ (snapOf 0x3 s).keys.valid = true ∧
    (snapOf 0x3 s).inLen.toNat + 49 ≤ (running 0x3 s).cfg.bufBytes ∧ (running 0x3 s).rng.answer = none) :=
  ⟨rfl, rfl, by decide, rfl⟩

/-- SEAL of "test" with a full answer, and with answers of 15 and 0 bytes. -/
theorem test_witness_seal : (sealing (answerA 16 0)).phase = .run (snapOf 0x3 (loaded plain keyed)) ∧
    (snapOf 0x3 (loaded plain keyed)).keys.valid = true ∧
    (snapOf 0x3 (loaded plain keyed)).inLen.toNat + 49 ≤ (sealing (answerA 16 0)).cfg.bufBytes ∧
    (sealing (answerA 16 0)).rng.answer = some (answerA 16 0) ∧ (answerA 16 0).count = 16 ∧
    (sealing (answerA 15 3)).rng.answer = some (answerA 15 3) ∧ (answerA 15 3).count ≠ 16 ∧
    (sealing (answerA 0 1)).rng.answer = some (answerA 0 1) ∧ (answerA 0 1).count ≠ 16 :=
  ⟨rfl, rfl, by decide, rfl, rfl, rfl, by decide, rfl, by decide⟩

/-- A SEAL that completes with its record. -/
theorem test_witness_seal_output : (let s := sealing (answerA 16 0)
    let snap := snapOf 0x3 (loaded plain keyed)
    let t := complete .ok (sealRecord encK macK ivA plain) s 16 0
    s.phase = .run snap ∧ s.cfg.legal = true ∧
    snap.data.length = min snap.inLen.toNat s.cfg.bufBytes ∧
    exec .sealData s = .next t ∧ t.phase = .idle ∧ t.statusErr = .ok) :=
  ⟨rfl, by decide, by decide, rfl, rfl, rfl⟩

/-- An answer to a request, and one with no request outstanding. -/
theorem test_witness_rng_answer :
    (waiting [.rngAnswer (answerA 16 0)]).inputs = .rngAnswer (answerA 16 0) :: [] ∧
    (waiting [.rngAnswer (answerA 16 0)]).phase = .rngWait (snapOf 0x3 (loaded plain keyed)) ∧
    (waiting [.rngAnswer (answerA 16 0)]).rng.pending = true ∧
    (∀ snap, (facing [.rngAnswer (answerA 16 0)]).phase ≠ .rngWait snap) ∧
    (facing [.rngAnswer (answerA 16 0)]).inputs = .rngAnswer (answerA 16 0) :: [] :=
  ⟨rfl, rfl, rfl, fun _ => Phase.noConfusion, rfl⟩

theorem test_witness_waits : (waiting []).phase = .rngWait (snapOf 0x3 (loaded plain keyed)) ∧
    (waiting []).inputs = [] := ⟨rfl, rfl⟩

/-- Two states that run the same SEAL with the same answer, one of them with another reply on the bus. -/
theorem test_witness_determined : (let s := sealing (answerA 16 0)
    let t := { s with reply := some (.write .okay) }
    let snap := snapOf 0x3 (loaded plain keyed)
    s.phase = .run snap ∧ t.phase = .run snap ∧ s.cfg.bufBytes = t.cfg.bufBytes ∧
    s.rng.answer = t.rng.answer ∧ s ≠ t ∧ (∃ u, runCommand snap s = .next u) ∧
    ∃ u, runCommand snap t = .next u) := by
  refine ⟨rfl, rfl, rfl, rfl, ?_, ⟨_, rfl⟩, ⟨_, rfl⟩⟩
  intro h
  have := congrArg State.reply h
  revert this
  decide

/-- An acceptance, a completion and a reset of a running command. -/
theorem test_witness_phase :
    (let s := facing [.busWrite 0x0008 0x1 0b1111]
     s.phase = .idle ∧ (after s (step s)).busy = true) ∧
    (let s := busyFacing []
     s.busy = true ∧ (after s (step s)).phase = .idle) ∧
    (let s := busyFacing [.reset]
     s.busy = true ∧ (after s (step s)).phase = .idle) := by decide +kernel

/-- A SEAL that asks, an illegal word that completes, and a read while a command runs on. -/
theorem test_witness_running :
    (running 0x3 (loaded plain keyed)).phase = .run (snapOf 0x3 (loaded plain keyed)) ∧
    (running 0x3 (loaded plain keyed)).cyclesLeft ≤ 1 ∧ (running 0x3 (loaded plain keyed)).inputs = [] ∧
    (running 0x5 keyed).phase = .run (snapOf 0x5 keyed) ∧
    (let s := busyFacing [.busRead 0x000C]
     s.busy = true ∧ (after State.reset (step s)).busy = true) :=
  ⟨rfl, le_refl 1, rfl, rfl, by decide +kernel⟩

/-- A command that completes: OPEN without a key. -/
theorem test_witness_completes :
    (let s := running 0x4 State.reset
     let snap := snapOf 0x4 State.reset
     s.phase = .run snap ∧ decode snap.cmd = .ok .openRecord ∧
     runCommand snap s = .next (complete .keyNotLoaded [] s 0 0) ∧
     (complete .keyNotLoaded [] s 0 0).phase = .idle) := ⟨rfl, rfl, rfl, rfl⟩

/-- A completion with nothing from outside. -/
theorem test_witness_no_host_write : (∃ t, step (busyFacing []) = .next t) ∧
    (∀ addr w strb rest, (busyFacing []).inputs ≠ .busWrite addr w strb :: rest) ∧
    (∀ rest, (busyFacing []).inputs ≠ .reset :: rest) :=
  ⟨⟨_, rfl⟩, fun _ _ _ _ => (List.cons_ne_nil _ _).symm, fun _ => (List.cons_ne_nil _ _).symm⟩

/-- A busy state that meets the invariant: KEY_LOAD accepted right after reset. -/
theorem test_witness_busy_invariant : (running 0x1 State.reset).Inv ∧
    (running 0x1 State.reset).phase ≠ .idle := by
  refine ⟨⟨by decide, ⟨by decide, by decide⟩, ⟨rfl, by decide, fun _ => rfl⟩, fun _ => rfl, ?_, ?_⟩,
    Phase.noConfusion⟩
  · exact ⟨fun _ => rfl, fun h => Err.noConfusion h, fun h => absurd rfl h⟩
  · exact ⟨⟨rfl, rfl, rfl, rfl, rfl, rfl, rfl, rfl⟩, rfl, fun h => absurd rfl h⟩

/-- KEY_LOAD with a latency of 3 cycles, and an illegal word with one of 1. -/
theorem test_witness_latency_run :
    (let s := { running 0x1 (staged 64) with cyclesLeft := 2 + 1 }
     s.phase = .run (snapOf 0x1 (staged 64)) ∧ s.inputs = [] ∧ s.cyclesLeft = 2 + 1 ∧
     decode (snapOf 0x1 (staged 64)).cmd = .ok .keyLoad) ∧
    (let s := running 0x13 keyed
     s.phase = .run (snapOf 0x13 keyed) ∧ s.inputs = [] ∧ s.cyclesLeft = 0 + 1 ∧
     decode (snapOf 0x13 keyed).cmd = .error .reservedNotZero) :=
  ⟨⟨rfl, rfl, rfl, rfl⟩, rfl, rfl, rfl, rfl⟩

/-- Two OPENs and two SEALs of one length with different bytes, at both ends of the lengths, two KEY_LOADs,
and two illegal words with one OP. -/
theorem test_witness_latency : (let p := openSnap recordS1 true
    let q := openSnap recordO3 false
    decode p.cmd = .ok .openRecord ∧ decode q.cmd = .ok .openRecord ∧ p.keys.valid = true ∧
    q.keys.valid = true ∧ p.inLen = q.inLen ∧ 48 ≤ p.inLen.toNat ∧
    p.inLen.toNat ≤ Config.initial.bufBytes) ∧
    (let p := snapOf 0x3 { keyed with inLen := 4047 }
     let q := snapOf 0x3 { keyed with inLen := 4047, ctrlStrict := false }
     decode p.cmd = .ok .sealData ∧ decode q.cmd = .ok .sealData ∧ p.keys.valid = true ∧
     q.keys.valid = true ∧ p.inLen = q.inLen ∧ p.inLen.toNat + 49 ≤ Config.initial.bufBytes) ∧
    (let p := snapOf 0x1 (staged 64)
     let q := snapOf 0x1 { State.reset with keyLen := 64 }
     p.word = q.word ∧ p.keys.valid = q.keys.valid ∧ p.inLen = q.inLen ∧ (p.keyLen = 64 ↔ q.keyLen = 64)) ∧
    (let p := snapOf 0x15 keyed
     let q := snapOf 0x25 keyed
     (∃ e, decode p.cmd = .error e) ∧ (∃ e, decode q.cmd = .error e) ∧ p.word.op = q.word.op) := by
  refine ⟨⟨rfl, rfl, rfl, rfl, rfl, by decide, by decide⟩, ⟨rfl, rfl, rfl, rfl, rfl, by decide⟩,
    ⟨rfl, rfl, rfl, Iff.rfl⟩, ⟨_, rfl⟩, ⟨_, rfl⟩, rfl⟩

theorem test_witness_reset : (busyFacing [.reset]).inputs = .reset :: [] := rfl

/-- The reset state meets the invariant, and so does what one clock cycle makes of it. -/
theorem test_witness_invariant : (State.resetWith Config.initial 1 []).Inv ∧
    step (State.resetWith Config.initial 1 []) = .next (State.resetWith Config.initial 1 []) :=
  ⟨⟨by decide, ⟨rfl, rfl⟩, ⟨rfl, by decide, fun _ => rfl⟩, fun _ => rfl,
    ⟨fun _ => rfl, fun h => Err.noConfusion h, fun h => absurd rfl h⟩, rfl, rfl⟩, rfl⟩

/-- Keys, blocks, IVs, comparator operands and a padded message of the lengths the statements ask for. -/
theorem test_witness_lengths : encK.length = 32 ∧ ivA.length = 16 ∧ encK.length % 16 = 0 ∧ 0 < encK.length ∧
    tagS1.length = 32 ∧ tagO9.length = 32 ∧ 8 * plain.length < 2 ^ 128 ∧ macK.length ≤ 128 ∧
    (List.replicate 128 (0 : Byte)).length ≤ 128 := by decide +kernel

/-! ## The hash unit, and SEAL and OPEN with it (95_test_vectors.md 2.2, 2.5, 2.7) -/

/-- V-H2: `SHA512("abc")`. -/
theorem test_sha512_abc : sha512 [0x61, 0x62, 0x63] = bytesOfNatBE 64
    0xddaf35a193617abacc417349ae20413112e6fa4e89a97ea20a9eeee64b55d39a2192992a274fc1a836ba3c23a3feebbd454d4423643ce80e2a9ac94fa54ca49f := by
  decide +kernel

/-- V-H7: the HMAC over V-S1's IV and ciphertext. -/
theorem test_hmac_seal : hmac512 macK (ivA ++ cipherS1) = tagS1 ++ bytesOfNatBE 32
    0x1fe415c910aa7a3675353afcff86c251267279f70da3d0ca2de9e99b3f198033 := by decide +kernel

/-- V-H6: the HMAC over an IV alone. -/
theorem test_hmac_iv : hmac512 macK ivA = recordO5.drop 16 ++ bytesOfNatBE 32
    0x89b7880085d44453afe4b10adf4c11a82110e240a81a3cf86144f66941266dcb := by decide +kernel

/-- V-O9's tag. -/
theorem test_hmac_o9 : tagOf macK (ivA ++ cipherO9) = tagO9 := by decide +kernel

theorem test_seal_cipher : cbcE encK ivA (pad plain) = cipherS1 := by decide +kernel

/-- V-S1's record. -/
theorem test_seal_record : sealRecord encK macK ivA plain = recordS1 := by
  have h : tagOf macK (ivA ++ cipherS1) = tagS1 := by
    rw [tagOf, test_hmac_seal]; decide
  simp only [sealRecord, test_seal_cipher, h, recordS1]

/-- V-S1: SEAL of `"test"` through the machine. -/
theorem test_seal : (let t := after State.reset (step (sealing (answerA 16 0)))
    t.obuf = recordS1 ∧ t.outLen = 64 ∧ statusWord t = 0x00034002) := by
  have h : step (sealing (answerA 16 0)) =
      .next (complete .ok (sealRecord encK macK ivA plain) (sealing (answerA 16 0)) 16 0) := by rfl
  rw [h, test_seal_record]
  decide +kernel

theorem test_expected_tag_s1 (b : Bool) : expectedTag (openSnap recordS1 b) = tagS1 := by
  have h : expectedTag (openSnap recordS1 b) = (hmac512 macK (ivA ++ cipherS1)).take 32 := by
    cases b <;> rfl
  rw [h, test_hmac_seal]; decide

theorem test_expected_tag_o3 (b : Bool) : expectedTag (openSnap recordO3 b) = tagS1 := by
  have h : expectedTag (openSnap recordO3 b) = (hmac512 macK (ivA ++ cipherS1)).take 32 := by
    cases b <;> rfl
  rw [h, test_hmac_seal]; decide

theorem test_expected_tag_o5 (b : Bool) : expectedTag (openSnap recordO5 b) = recordO5.drop 16 := by
  have h : expectedTag (openSnap recordO5 b) = (hmac512 macK ivA).take 32 := by
    cases b <;> rfl
  rw [h, test_hmac_iv]; decide

theorem test_expected_tag_o9 (b : Bool) : expectedTag (openSnap recordO9 b) = tagO9 := by
  have h : expectedTag (openSnap recordO9 b) = tagOf macK (ivA ++ cipherO9) := by
    cases b <;> rfl
  rw [h, test_hmac_o9]

theorem test_open_step (r : Bytes) (b : Bool) :
    step (opening r b) = .next (completeOpen (openSnap r b) (opening r b)) := by
  have h : decode (openSnap r b).cmd = .ok .openRecord :=
    (by decide : decode (cmdWordOf (cmdFields 0x4)) = .ok .openRecord)
  show runCommand (openSnap r b) (opening r b) = _
  rw [runCommand, h]
  rfl

/-- V-O1: OPEN of V-S1's record through the machine. -/
theorem test_open : (let t := after State.reset (step (opening recordS1 true))
    t.obuf = plain ∧ t.outLen = 4 ∧ statusWord t = 0x00040002) := by
  rw [test_open_step]
  unfold completeOpen
  rw [test_expected_tag_s1]
  decide +kernel

/-- V-O3: the tag altered. -/
theorem test_open_tampered (b : Bool) : (let t := after State.reset (step (opening recordO3 b))
    t.obuf = [] ∧ statusWord t = 0x00040042) := by
  rw [test_open_step]
  unfold completeOpen
  rw [test_expected_tag_o3]
  cases b <;> decide +kernel

/-- V-O5: a valid tag over an empty ciphertext, by STRICT. -/
theorem test_open_empty_ciphertext :
    statusWord (after State.reset (step (opening recordO5 true))) = 0x00040042 ∧
    statusWord (after State.reset (step (opening recordO5 false))) = 0x00040052 := by
  rw [test_open_step, test_open_step]
  unfold completeOpen
  rw [test_expected_tag_o5, test_expected_tag_o5]
  decide +kernel

/-- V-O9: a valid tag and a bad padding, by STRICT. -/
theorem test_open_bad_padding :
    statusWord (after State.reset (step (opening recordO9 true))) = 0x00040042 ∧
    statusWord (after State.reset (step (opening recordO9 false))) = 0x00040052 := by
  rw [test_open_step, test_open_step]
  unfold completeOpen
  rw [test_expected_tag_o9, test_expected_tag_o9]
  decide +kernel

/-! ## Witnesses that take a tag -/

/-- V-O1: a record that passes every check. -/
theorem test_witness_open : (let s := opening recordS1 true
    let snap := openSnap recordS1 true
    s.phase = .run snap ∧ snap.keys.valid = true ∧ snap.inLen.toNat ≤ s.cfg.bufBytes ∧
    48 ≤ snap.inLen.toNat ∧ ctEq (recordTag snap.input) (expectedTag snap) = true ∧
    0 < (recordCiphertext snap.input).length ∧ (recordCiphertext snap.input).length % 16 = 0 ∧
    padOk (cbcD snap.encKey (recordIv snap.input) (recordCiphertext snap.input)) = true) := by
  refine ⟨rfl, rfl, by decide, by decide, ?_, ?_⟩
  · rw [test_expected_tag_s1]; decide +kernel
  · decide +kernel

/-- One record for each branch of the order of checks, by the code reported: no key, 4097 and 47 bytes, V-O3,
V-O5 and V-O9. -/
theorem test_witness_first_check :
    (running 0x4 State.reset).phase = .run (snapOf 0x4 State.reset) ∧
    (snapOf 0x4 State.reset).keys.valid = false ∧
    (let snap := snapOf 0x4 { keyed with inLen := 4097 }
     snap.keys.valid = true ∧ State.reset.cfg.bufBytes < snap.inLen.toNat) ∧
    (snapOf 0x4 { keyed with inLen := 47 }).inLen.toNat < 48 ∧
    (let snap := snapOf 0x3 { keyed with inLen := 4048 }
     snap.keys.valid = true ∧ State.reset.cfg.bufBytes < snap.inLen.toNat + 49) ∧
    ctEq (recordTag (openSnap recordO3 true).input) (expectedTag (openSnap recordO3 true)) = false ∧
    (let snap := openSnap recordO5 false
     ctEq (recordTag snap.input) (expectedTag snap) = true ∧ (recordCiphertext snap.input).length = 0) ∧
    (let snap := openSnap recordO9 false
     ctEq (recordTag snap.input) (expectedTag snap) = true ∧
     padOk (cbcD snap.encKey (recordIv snap.input) (recordCiphertext snap.input)) = false) := by
  refine ⟨rfl, rfl, by decide, by decide, by decide, ?_, ?_, ?_⟩
  · rw [test_expected_tag_o3]; decide +kernel
  · dsimp only; rw [test_expected_tag_o5]; decide +kernel
  · dsimp only; rw [test_expected_tag_o9]; decide +kernel

/-- V-O5 with STRICT = 0 reports InvalidPadding; V-O1 reports OK; V-O3's tag does not match. -/
theorem test_witness_padding_class :
    (after State.reset (step (opening recordO5 false))).statusErr = .invalidPadding ∧
    (after State.reset (step (opening recordS1 true))).statusErr = .ok ∧
    ctEq (recordTag (openSnap recordO3 true).input) (expectedTag (openSnap recordO3 true)) = false ∧
    (opening recordO5 false).phase = .run (openSnap recordO5 false) := by
  refine ⟨?_, ?_, test_witness_first_check.2.2.2.2.2.1, rfl⟩
  · rw [test_open_step]; unfold completeOpen; rw [test_expected_tag_o5]; decide +kernel
  · rw [test_open_step]; unfold completeOpen; rw [test_expected_tag_s1]; decide +kernel

/-- V-O3 beside itself, and beside V-O9 with STRICT = 1: 64 bytes each. -/
theorem test_witness_tampered : (let p := openSnap recordO3 true
    let q := openSnap recordO9 true
    (opening recordO3 true).phase = .run p ∧ (opening recordO9 true).phase = .run q ∧
    (opening recordO3 true).cfg = (opening recordO9 true).cfg ∧
    decode p.cmd = .ok .openRecord ∧ decode q.cmd = .ok .openRecord ∧ p.keys = q.keys ∧
    p.keys.valid = true ∧ p.strict = q.strict ∧ p.inLen = q.inLen ∧ 48 ≤ p.inLen.toNat ∧
    p.inLen.toNat ≤ (opening recordO3 true).cfg.bufBytes ∧
    ctEq (recordTag p.input) (expectedTag p) = false ∧
    q.strict = true ∧ ¬ ∃ u, exec .openRecord (opening recordO9 true) = .next u ∧ u.statusErr = .ok) := by
  have hc (r : Bytes) : (opening r true).cfg = Config.initial := rfl
  have hk (r : Bytes) : (openSnap r true).keys = keysK := rfl
  have hs (r : Bytes) : (openSnap r true).strict = true := rfl
  refine ⟨rfl, rfl, (hc _).trans (hc _).symm, rfl, rfl, (hk _).trans (hk _).symm, hk recordO3 ▸ rfl,
    (hs _).trans (hs _).symm, by decide +kernel, by decide, by decide,
    test_witness_first_check.2.2.2.2.2.1, rfl, ?_⟩
  rintro ⟨u, hu, he⟩
  rw [exec_run .openRecord _ (openSnap recordO9 true) rfl] at hu
  rw [← Host.Outcome.next.inj hu] at he
  revert he
  simp only [commandEffect]
  unfold completeOpen
  rw [test_expected_tag_o9]
  decide +kernel

/-- V-S1's SEAL and an OPEN of its output. -/
theorem test_witness_open_of_seal : (let t := complete .ok (sealRecord encK macK ivA plain) (sealing (answerA 16 0)) 16 0
    exec .sealData (sealing (answerA 16 0)) = .next t ∧ t.phase = .idle ∧ t.statusErr = .ok ∧
    (opening recordS1 false).phase = .run (openSnap recordS1 false) ∧
    (opening recordS1 false).cfg = (sealing (answerA 16 0)).cfg ∧
    (openSnap recordS1 false).keys = (snapOf 0x3 (loaded plain keyed)).keys ∧
    (openSnap recordS1 false).data = t.obuf ∧ (openSnap recordS1 false).inLen = t.outLen) := by
  refine ⟨rfl, rfl, rfl, rfl, rfl, rfl, ?_, ?_⟩
  · rw [complete_obuf, test_seal_record]; decide +kernel
  · rw [complete_outLen, test_seal_record]; decide +kernel

end Sys2Proof.Tests
end

section
/-! SUPPORT. The registers as the bus reads and writes them: one equation per register, what the reserved bits of
each word hold, and that a write takes no reserved bit. -/

namespace Sys2Proof.Machine

/-! ### One equation per register access (20_memory.md R95, R96) -/

theorem busRead_id (s : State) : busRead s 0x0000 = (idValue, .okay) := busRead_ok s _ rfl

theorem busRead_ctrl (s : State) : busRead s 0x0004 = (ctrlWord s, .okay) := busRead_ok s _ rfl

theorem busRead_status (s : State) : busRead s 0x000C = (statusWord s, .okay) := busRead_ok s _ rfl

theorem busRead_event (s : State) : busRead s 0x0010 = (eventWord s, .okay) := busRead_ok s _ rfl

theorem busRead_keyLen (s : State) : busRead s 0x0014 = (s.keyLen.setWidth 32, .okay) := busRead_ok s _ rfl

theorem busRead_inLen (s : State) : busRead s 0x0018 = (s.inLen.setWidth 32, .okay) := busRead_ok s _ rfl

theorem busRead_outLen (s : State) : busRead s 0x001C = (s.outLen.setWidth 32, .okay) := busRead_ok s _ rfl

theorem busRead_param (s : State) : busRead s 0x0020 = (BitVec.ofNat 32 s.cfg.bufBytes, .okay) :=
  busRead_ok s _ rfl

theorem busWrite_id (s : State) (w : Word) : busWrite s 0x0000 w 0b1111 = (s, .okay) := busWrite_ok s _ w rfl

theorem busWrite_ctrl (s : State) (w : Word) :
    busWrite s 0x0004 w 0b1111 = (inputWrite (writeCtrl w) s, .okay) := busWrite_ok s _ w rfl

theorem busWrite_event (s : State) (w : Word) :
    busWrite s 0x0010 w 0b1111 = (writeEvent w s, .okay) := busWrite_ok s _ w rfl

theorem busWrite_keyLen (s : State) (w : Word) :
    busWrite s 0x0014 w 0b1111 = (inputWrite (writeKeyLen w) s, .okay) := busWrite_ok s _ w rfl

theorem busWrite_inLen (s : State) (w : Word) :
    busWrite s 0x0018 w 0b1111 = (inputWrite (writeInLen w) s, .okay) := busWrite_ok s _ w rfl

theorem busWrite_param (s : State) (w : Word) : busWrite s 0x0020 w 0b1111 = (s, .okay) := busWrite_ok s _ w rfl

/-! ### Reserved bits of the words that are read

A field of an appended word is found by dropping the low parts below it, one at a time. -/

theorem ctrlWord_reserved (s : State) : (ctrlWord s).extractLsb' 2 30 = 0 := by
  unfold ctrlWord
  rw [BitVec.extractLsb'_append_eq_of_le (by decide)]
  exact BitVec.extractLsb'_append_eq_left

theorem eventWord_reserved (s : State) : (eventWord s).extractLsb' 3 29 = 0 := by
  unfold eventWord
  repeat rw [BitVec.extractLsb'_append_eq_of_le (by decide)]
  exact BitVec.extractLsb'_zero

/-- The reserved bits 3:2, 15 and 31:20 of STATUS are 0 (10_state.md R36). -/
theorem statusWord_reserved (s : State) : (statusWord s).extractLsb' 2 2 = 0 ∧
    (statusWord s).extractLsb' 15 1 = 0 ∧ (statusWord s).extractLsb' 20 12 = 0 := by
  unfold statusWord
  refine ⟨?_, ?_, ?_⟩
  · repeat rw [BitVec.extractLsb'_append_eq_of_le (by decide)]
    exact BitVec.extractLsb'_append_eq_right
  · repeat rw [BitVec.extractLsb'_append_eq_of_le (by decide)]
    exact BitVec.extractLsb'_append_eq_right
  · repeat rw [BitVec.extractLsb'_append_eq_of_le (by decide)]
    exact BitVec.extractLsb'_zero

/-- A word whose value fits its low half has 0 in its high half. -/
theorem extractLsb'_high_of_lt (w : Word) (h : w.toNat < 2 ^ 16) : w.extractLsb' 16 16 = 0 := by
  apply BitVec.eq_of_toNat_eq
  rw [BitVec.extractLsb'_toNat, Nat.shiftRight_eq_div_pow, Nat.div_eq_of_lt h]
  rfl

/-- The upper half of a 16-bit register's word is 0. -/
theorem setWidth_reserved (b : BitVec 16) : (b.setWidth 32).extractLsb' 16 16 = 0 :=
  extractLsb'_high_of_lt _ (by simp; omega)

/-! ### Reserved bits of the words that are written -/

/-- Two words with the same low `n` bits have the same bit `i` for `i < n`. -/
theorem getLsbD_eq_of_low_eq {v w : Word} {n : Nat} (h : v.extractLsb' 0 n = w.extractLsb' 0 n)
    {i : Nat} (hi : i < n) : v.getLsbD i = w.getLsbD i := by
  simpa [hi] using congrArg (·.getLsbD i) h

theorem writeCtrl_eq_of_low_eq {v w : Word} (h : v.extractLsb' 0 2 = w.extractLsb' 0 2) :
    writeCtrl v = writeCtrl w := by
  funext s
  simp only [writeCtrl, getLsbD_eq_of_low_eq h (show 0 < 2 by decide),
    getLsbD_eq_of_low_eq h (show 1 < 2 by decide)]

theorem writeEvent_eq_of_low_eq {v w : Word} (h : v.extractLsb' 0 3 = w.extractLsb' 0 3) :
    writeEvent v = writeEvent w := by
  funext s
  simp only [writeEvent, getLsbD_eq_of_low_eq h (show 0 < 3 by decide),
    getLsbD_eq_of_low_eq h (show 1 < 3 by decide), getLsbD_eq_of_low_eq h (show 2 < 3 by decide)]

theorem setWidth_eq_of_low_eq {v w : Word} (h : v.extractLsb' 0 16 = w.extractLsb' 0 16) :
    v.setWidth 16 = w.setWidth 16 := by
  simpa only [BitVec.setWidth_eq_extractLsb' (show 16 ≤ 32 by decide)] using h

theorem writeKeyLen_eq_of_low_eq {v w : Word} (h : v.extractLsb' 0 16 = w.extractLsb' 0 16) :
    writeKeyLen v = writeKeyLen w := by
  unfold writeKeyLen
  rw [setWidth_eq_of_low_eq h]

theorem writeInLen_eq_of_low_eq {v w : Word} (h : v.extractLsb' 0 16 = w.extractLsb' 0 16) :
    writeInLen v = writeInLen w := by
  unfold writeInLen
  rw [setWidth_eq_of_low_eq h]

/-- A word with a nonzero `RSV` is no command (30_encoding.md R133). -/
theorem decode_of_reserved_ne_zero {w : Word} (h : w.extractLsb' 4 28 ≠ 0) :
    decode w = .error .reservedNotZero :=
  if_neg (by simpa [cmdFields, rsvZero] using h)

/-- Settles O16: each register word has 0 in its reserved bits, and each write reads the low bits only. -/
theorem reservedBitsReadZeroAndIgnoreWrites : Obligations.ReservedBitsReadZeroAndIgnoreWrites := by
  refine ⟨fun s => ?_, fun s v w => ⟨fun h => ?_, fun h => ?_, fun h => ⟨?_, ?_⟩⟩,
    fun w h => ⟨_, decode_of_reserved_ne_zero h⟩⟩
  · obtain ⟨hs2, hs15, hs20⟩ := statusWord_reserved s
    rw [busRead_ctrl, busRead_status, busRead_event, busRead_keyLen, busRead_inLen, busRead_outLen]
    exact ⟨ctrlWord_reserved s, hs2, hs15, hs20, eventWord_reserved s, setWidth_reserved _,
      setWidth_reserved _, setWidth_reserved _⟩
  · rw [busWrite_ctrl, busWrite_ctrl, writeCtrl_eq_of_low_eq h]
  · rw [busWrite_event, busWrite_event, writeEvent_eq_of_low_eq h]
  · rw [busWrite_keyLen, busWrite_keyLen, writeKeyLen_eq_of_low_eq h]
  · rw [busWrite_inLen, busWrite_inLen, writeInLen_eq_of_low_eq h]

theorem bufBytes_lt_of_legal {c : Config} (h : c.legal = true) : c.bufBytes < 2 ^ 16 := by
  simp only [Config.legal, Bool.and_eq_true, decide_eq_true_eq] at h
  omega

/-- Settles O14: both registers have no state to write, and a legal BUF_BYTES fits the low half of PARAM. -/
theorem idAndParamRegisters : Obligations.IdAndParamRegisters := by
  refine ⟨fun s w => ⟨busRead_id s, busWrite_id s w, busWrite_param s w⟩, fun s hl => ?_⟩
  have hlt : s.cfg.bufBytes < 2 ^ 16 := bufBytes_lt_of_legal hl
  have hval : (BitVec.ofNat 32 s.cfg.bufBytes).toNat = s.cfg.bufBytes := by
    rw [BitVec.toNat_ofNat]; omega
  refine ⟨_, busRead_param s, ?_, extractLsb'_high_of_lt _ (by omega)⟩
  rw [BitVec.extractLsb'_toNat, hval, Nat.shiftRight_zero, Nat.mod_eq_of_lt hlt]

end Sys2Proof.Machine
end

section
/-! SUPPORT. The key store (10_state.md R45, R46): which operations keep it, and what one step can do to it. -/

namespace Sys2Proof.Machine

@[simp] theorem answerRng_keys (a : RngAnswer) (s : State) : (answerRng a s).keys = s.keys := by
  rcases answerRng_cases a s with ⟨snap, -, -, h⟩ | ⟨h, -⟩ <;> rw [h]

@[simp] theorem busWrite_keys (s : State) (addr : BitVec 16) (w : Word) (strb : BitVec 4) :
    (busWrite s addr w strb).1.keys = s.keys := by
  have heff := busWrite_effect s addr w strb
  generalize (busWrite s addr w strb).1 = t at heff ⊢
  cases heff <;> rfl

@[simp] theorem stepSeal_keys (snap : Snapshot) (s : State) : (stepSeal snap s).keys = s.keys := by
  rcases stepSeal_cases snap s with ⟨-, h⟩ | ⟨-, -, h⟩ | ⟨-, -, -, h⟩ | ⟨a, -, -, -, -, h⟩ |
    ⟨a, -, -, -, -, h⟩ <;> simp [h]

@[simp] theorem completeOpen_keys (snap : Snapshot) (s : State) : (completeOpen snap s).keys = s.keys := by
  rcases completeOpen_cases snap s with ⟨e, -, -, h⟩ | ⟨-, -, -, -, -, -, -, h⟩ <;> simp [h]

/-- What a clock cycle of a block in phase `p` with key store `k` can leave as the key store: the same one; none,
after a KEY_LOAD or KEY_CLEAR; or the staged key, after a KEY_LOAD with KEY_LEN = 64 (R46). -/
inductive KeyEffect (p : Phase) (k : KeyStore) : KeyStore → Prop where
  | kept : KeyEffect p k k
  | cleared (snap : Snapshot) : p = .run snap →
      decode snap.cmd = .ok .keyLoad ∨ decode snap.cmd = .ok .keyClear → KeyEffect p k KeyStore.empty
  | loaded (snap : Snapshot) : p = .run snap → decode snap.cmd = .ok .keyLoad → snap.keyLen = 64 →
      KeyEffect p k (keyStoreOf snap.kstage)

theorem commandEffect_keyEffect {s : State} {snap : Snapshot} {i : Instr} (hp : s.phase = .run snap)
    (hd : decode snap.cmd = .ok i) : KeyEffect s.phase s.keys (commandEffect i snap s).keys := by
  cases i with
  | keyLoad =>
    rcases completeKeyLoad_cases snap s with ⟨hk, h⟩ | ⟨-, h⟩ <;> simp only [commandEffect, h]
    · exact .loaded snap hp hd hk
    · exact .cleared snap hp (.inl hd)
  | keyClear => exact .cleared snap hp (.inr hd)
  | sealData => rw [commandEffect, stepSeal_keys]; exact .kept
  | openRecord => rw [commandEffect, completeOpen_keys]; exact .kept

theorem cycleEffect_keyEffect (s : State) : KeyEffect s.phase s.keys (cycleEffect s).keys := by
  rcases cycleEffect_cases s with h | ⟨snap, -, -, h⟩ | ⟨snap, i, hp, hd, h⟩ | ⟨snap, e, -, -, h⟩ <;> rw [h]
  · exact .kept
  · exact .kept
  · exact commandEffect_keyEffect hp hd
  · exact .kept

/-- What one step can do to the key store: empty it by a reset, or what a clock cycle can do (R46). -/
theorem step_keyEffect {s t : State} (h : step s = .next t) :
    ((∃ rest, s.inputs = .reset :: rest) ∧ t.keys = KeyStore.empty) ∨
    KeyEffect s.phase s.keys t.keys := by
  rcases step_cases h with ⟨-, rfl⟩ | ⟨rest, -, rfl⟩ | ⟨addr, rest, -, rfl⟩ | ⟨addr, w, strb, rest, -, rfl⟩ |
    ⟨addr, mask, val, rest, -, rfl | rfl⟩ | ⟨a, rest, -, rfl⟩ | ⟨rest, hi, rfl⟩
  · exact .inr (cycleEffect_keyEffect s)
  · exact .inr (cycleEffect_keyEffect { s with inputs := rest })
  · exact .inr .kept
  · refine .inr ?_
    rw [busWrite_keys]
    exact .kept
  · exact .inr .kept
  · exact .inr (cycleEffect_keyEffect { s with reply := some (.read (busRead s addr).1 (busRead s addr).2) })
  · rw [answerRng_keys]
    exact .inr .kept
  · exact .inl ⟨⟨rest, hi⟩, rfl⟩

theorem State.keysOk_of_empty {s : State} (h : s.keys = KeyStore.empty) : s.keysOk := fun _ => h

/-- Settles O26, by what one step can do to the key store. -/
theorem onlyKeyCommandsChangeTheKeyStore : Obligations.OnlyKeyCommandsChangeTheKeyStore := by
  refine ⟨fun s t hstep => ?_, State.keysOk_of_empty rfl⟩
  rcases step_keyEffect hstep with ⟨hreset, hk⟩ | heff
  · exact ⟨fun _ => .inl hreset, fun _ hv => by simp [hk, KeyStore.empty] at hv, fun _ => State.keysOk_of_empty hk⟩
  generalize hk : t.keys = k at heff
  cases heff with
  | kept =>
    exact ⟨fun hne => absurd rfl hne, fun hf ht => by simp [hf] at ht, fun hok => by rwa [State.keysOk, hk]⟩
  | cleared snap hp hd =>
    exact ⟨fun _ => .inr ⟨snap, hp, hd⟩, fun _ ht => by simp [KeyStore.empty] at ht,
      fun _ => State.keysOk_of_empty hk⟩
  | loaded snap hp hd hlen =>
    have hvalid : t.keys.valid = true := by rw [hk]; rfl
    exact ⟨fun _ => .inr ⟨snap, hp, .inl hd⟩, fun _ _ => ⟨snap, hp, hd, hlen⟩,
      fun _ hf => by simp [hvalid] at hf⟩

end Sys2Proof.Machine
end

section
/-! SUPPORT. The memory map as the bus reads and writes it (20_memory.md R92 to R99): the accesses answered SLVERR, the
windows, the writes a busy block ignores, and the words that a busy block reads as. -/

namespace Sys2Proof.Machine

/-! ### Accesses answered SLVERR (R92, R97) -/

theorem toNat_mod_four_eq_zero_iff (addr : BitVec 16) : addr.toNat % 4 = 0 ↔ addr.extractLsb' 0 2 = 0 :=
  (aligned_iff addr).symm.trans beq_iff_eq

theorem busRead_misaligned (s : State) (addr : BitVec 16) (h : addr.toNat % 4 ≠ 0) :
    busRead s addr = (0, .slverr) :=
  if_pos (by simpa using mt (aligned_iff addr).mp h)

/-- Settles O11: a bad access is turned away before its address is looked at. -/
theorem misalignedAndPartialAccesses : Obligations.MisalignedAndPartialAccesses := by
  intro s addr w strb
  refine ⟨fun h => busRead_misaligned s addr ?_, fun h => busWrite_bad s addr w strb ?_⟩
  · rwa [Ne, toNat_mod_four_eq_zero_iff]
  · rwa [toNat_mod_four_eq_zero_iff, not_and_or]

theorem busRead_unmapped (s : State) (addr : BitVec 16) (h : targetOf s.cfg addr = .unmapped) :
    busRead s addr = (0, .slverr) := by
  by_cases hal : addr.toNat % 4 = 0
  · rw [busRead_ok s addr hal, h]
  · exact busRead_misaligned s addr hal

theorem busWrite_unmapped (s : State) (addr : BitVec 16) (w : Word) (strb : BitVec 4)
    (h : targetOf s.cfg addr = .unmapped) : busWrite s addr w strb = (s, .slverr) := by
  by_cases hok : addr.toNat % 4 = 0 ∧ strb = 0b1111
  · obtain ⟨hal, rfl⟩ := hok
    rw [busWrite_ok s addr w hal, h]
  · exact busWrite_bad s addr w strb hok

/-- An aligned write with all strobes is answered SLVERR at unmapped offsets only (R96, R97). -/
theorem targetOf_of_busWrite_slverr {s : State} {addr : BitVec 16} {w : Word} (hal : addr.toNat % 4 = 0)
    (h : (busWrite s addr w 0b1111).2 = .slverr) : targetOf s.cfg addr = .unmapped := by
  rw [busWrite_ok s addr w hal] at h
  cases ht : targetOf s.cfg addr <;> simp [ht] at h ⊢

/-- A write answered SLVERR changes nothing (R97). -/
theorem busWrite_fst_of_slverr {s : State} {addr : BitVec 16} {w : Word} {strb : BitVec 4}
    (h : (busWrite s addr w strb).2 = .slverr) : (busWrite s addr w strb).1 = s := by
  by_cases hok : addr.toNat % 4 = 0 ∧ strb = 0b1111
  · obtain ⟨hal, rfl⟩ := hok
    rw [busWrite_unmapped s addr w 0b1111 (targetOf_of_busWrite_slverr hal h)]
  · rw [busWrite_bad s addr w strb hok]

/-- No register stands above PARAM (10_state.md R32). -/
theorem registerAt_unmapped {o : Nat} (h : 0x24 ≤ o) : registerAt o = .unmapped := by
  by_contra hr
  have hcases := registerAt_cases o
  simp only [hr, or_false] at hcases
  omega

/-- The unmapped offsets of R97, range by range. -/
theorem targetOf_unmapped {cfg : Config} {addr : BitVec 16}
    (h : (0x24 ≤ addr.toNat ∧ addr.toNat ≤ 0x3F) ∨ (0x80 ≤ addr.toNat ∧ addr.toNat ≤ 0x7FFF) ∨
      (0x8000 ≤ addr.toNat ∧ addr.toNat ≤ 0xBFFF ∧ cfg.bufBytes ≤ addr.toNat - 0x8000) ∨
      (0xC000 ≤ addr.toNat ∧ cfg.bufBytes ≤ addr.toNat - 0xC000)) : targetOf cfg addr = .unmapped := by
  rcases h with ⟨hlo, hhi⟩ | ⟨hlo, hhi⟩ | ⟨hlo, hhi, hbuf⟩ | ⟨hlo, hbuf⟩
  · rw [targetOf_low cfg addr (by omega), registerAt_unmapped hlo]
  · exact targetOf_gap cfg addr hlo (by omega)
  · rw [targetOf_ibuf cfg addr hlo (by omega), if_neg (by omega)]
  · rw [targetOf_obuf cfg addr hlo, if_neg (by omega)]

/-- Settles O12, by the address map at the unmapped offsets and by what SLVERR says of a write. -/
theorem unmappedOffsets : Obligations.UnmappedOffsets := fun s addr w strb =>
  ⟨fun h => ⟨busRead_unmapped s addr (targetOf_unmapped h), busWrite_unmapped s addr w strb (targetOf_unmapped h)⟩,
    busWrite_fst_of_slverr⟩

/-! ### Writes to the windows and to the other registers (R96, R98) -/

theorem busWrite_status (s : State) (w : Word) : busWrite s 0x000C w 0b1111 = (s, .okay) := busWrite_ok s _ w rfl

theorem busWrite_outLen (s : State) (w : Word) : busWrite s 0x001C w 0b1111 = (s, .okay) := busWrite_ok s _ w rfl

theorem busWrite_kstage (s : State) (addr : BitVec 16) (w : Word) (hal : addr.toNat % 4 = 0)
    (hlo : 0x40 ≤ addr.toNat) (hhi : addr.toNat < 0x80) :
    busWrite s addr w 0b1111 = (inputWrite (writeKstageWord (addr.toNat - 0x40) w) s, .okay) := by
  rw [busWrite_ok s addr w hal, targetOf_kstage s.cfg addr hlo hhi]

theorem busWrite_ibuf (s : State) (addr : BitVec 16) (w : Word) (hal : addr.toNat % 4 = 0)
    (hlo : 0x8000 ≤ addr.toNat) (hhi : addr.toNat < 0xC000) (hbuf : addr.toNat - 0x8000 < s.cfg.bufBytes) :
    busWrite s addr w 0b1111 = (inputWrite (writeIbufWord (addr.toNat - 0x8000) w) s, .okay) := by
  rw [busWrite_ok s addr w hal, targetOf_ibuf s.cfg addr hlo hhi, if_pos hbuf]

/-- Settles O10: each input is written through `inputWrite`, which a busy block ignores. -/
theorem inputWritesWhileBusyAreIgnored : Obligations.InputWritesWhileBusyAreIgnored := by
  intro s addr w hbusy hal
  refine ⟨?_, ?_, ?_⟩
  · rintro (rfl | rfl | rfl | ⟨hlo, hhi⟩ | ⟨hlo, hhi, hbuf⟩)
    · rw [busWrite_ctrl, inputWrite_busy _ s hbusy, ignoreWrite]
    · rw [busWrite_keyLen, inputWrite_busy _ s hbusy, ignoreWrite]
    · rw [busWrite_inLen, inputWrite_busy _ s hbusy, ignoreWrite]
    · rw [busWrite_kstage s addr w hal hlo (by omega), inputWrite_busy _ s hbusy, ignoreWrite]
    · rw [busWrite_ibuf s addr w hal hlo (by omega) hbuf, inputWrite_busy _ s hbusy, ignoreWrite]
  · rintro rfl
    exact busWrite_event s w
  · rintro (rfl | rfl | rfl | rfl)
    · exact busWrite_id s w
    · exact busWrite_status s w
    · exact busWrite_outLen s w
    · exact busWrite_param s w

/-! ### Reads of the windows (R91, R95) -/

theorem bufBytes_le_of_legal {c : Config} (h : c.legal = true) : c.bufBytes ≤ 0x4000 := by
  simp only [Config.legal, Bool.and_eq_true, decide_eq_true_eq] at h
  omega

/-- The word offset `4 * k` of a window that lies at `base` (10_state.md R32). -/
theorem toNat_windowOffset {base k : Nat} (hbase : base + 0x4000 ≤ 2 ^ 16) (hk : 4 * k < 0x4000) :
    (BitVec.ofNat 16 (base + 4 * k)).toNat = base + 4 * k := by
  rw [BitVec.toNat_ofNat]
  omega

theorem busRead_ibuf {s : State} {k : Nat} (hl : s.cfg.legal = true) (hk : 4 * k < s.cfg.bufBytes) :
    busRead s (BitVec.ofNat 16 (0x8000 + 4 * k)) = (windowWord (ibufByte s) (4 * k), .okay) := by
  have hmax := bufBytes_le_of_legal hl
  have haddr := toNat_windowOffset (base := 0x8000) (k := k) (by decide) (by omega)
  rw [busRead_ok s _ (by omega), targetOf_ibuf s.cfg _ (by omega) (by omega), haddr, Nat.add_sub_cancel_left,
    if_pos hk]

theorem busRead_obuf {s : State} {k : Nat} (hl : s.cfg.legal = true) (hk : 4 * k < s.cfg.bufBytes) :
    busRead s (BitVec.ofNat 16 (0xC000 + 4 * k)) = (windowWord (obufByte s) (4 * k), .okay) := by
  have hmax := bufBytes_le_of_legal hl
  have haddr := toNat_windowOffset (base := 0xC000) (k := k) (by decide) (by omega)
  rw [busRead_ok s _ (by omega), targetOf_obuf s.cfg _ (by omega), haddr, Nat.add_sub_cancel_left, if_pos hk]

theorem extractLsb'_windowWord (f : Nat → Byte) (j : Nat) {i : Nat} (hi : i < 4) :
    (windowWord f j).extractLsb' (8 * i) 8 = f (j + i) := by
  rw [windowWord, extractLsb'_wordOfBytesLE _ _ _ _ i hi]
  interval_cases i <;> rfl

theorem obufByte_of_outLen_zero {s : State} (h : s.outLen = 0) (i : Nat) : obufByte s i = 0 := by
  simp [obufByte, h]

/-- A block without output shows 0 in every word of OBUF (R95). -/
theorem windowWord_obufByte_of_outLen_zero {s : State} (h : s.outLen = 0) (j : Nat) :
    windowWord (obufByte s) j = 0 := by
  simp only [windowWord, obufByte_of_outLen_zero h]
  rfl

/-! ### What a busy block shows (R99) -/

theorem statusWord_getLsbD_busy (s : State) : (statusWord s).getLsbD 0 = s.busy := by
  unfold statusWord
  rw [BitVec.getLsbD_append]
  cases s.busy <;> rfl

theorem statusWord_extractLsb'_err (s : State) : (statusWord s).extractLsb' 4 4 = errCode s.statusErr := by
  unfold statusWord
  repeat rw [BitVec.extractLsb'_append_eq_of_le (by decide)]
  exact BitVec.extractLsb'_append_eq_right

/-- Both busy phases carry a snapshot, and the invariant says the same of what it leaves visible. -/
theorem State.Inv.runningOk {s : State} (hinv : s.Inv) (hbusy : s.phase ≠ .idle) : ∃ snap, s.runningOk snap := by
  have hphase := hinv.phase
  unfold State.phaseOk at hphase
  cases hp : s.phase with
  | idle => exact absurd hp hbusy
  | run snap =>
    rw [hp] at hphase
    exact ⟨snap, hphase.1⟩
  | rngWait snap =>
    rw [hp] at hphase
    exact ⟨snap, hphase.1⟩

/-- Settles O43, by what the invariant says of a running command and by the words the bus reads. -/
theorem busyReads : Obligations.BusyReads := by
  intro s hinv hbusy
  obtain ⟨snap, -, -, herr, -, -, -, hout, -⟩ := hinv.runningOk hbusy
  rw [busRead_status, busRead_outLen, busRead_ctrl, busRead_keyLen, busRead_inLen]
  refine ⟨?_, ?_, ?_, fun k hk => ?_, rfl, ?_, ?_, fun k i hk hi => ?_⟩
  · rw [statusWord_getLsbD_busy, (busy_eq_true s).mpr hbusy]
  · rw [statusWord_extractLsb'_err, herr, errCode]
  · rw [hout]
    rfl
  · rw [busRead_obuf hinv.cfg hk, windowWord_obufByte_of_outLen_zero hout]
  · exact BitVec.toNat_setWidth_of_le (by decide)
  · exact BitVec.toNat_setWidth_of_le (by decide)
  · rw [busRead_ibuf hinv.cfg hk, extractLsb'_windowWord _ _ hi]

end Sys2Proof.Machine
end

section
/-! SUPPORT. The decoder inverts the encoder and accepts no word but the encoder's (30_encoding.md R130 to R133). -/

namespace Sys2Proof.Machine

/-! ### A command word and its two fields (R130) -/

@[simp] theorem cmdWordOf_cmdFields (w : Word) : cmdWordOf (cmdFields w) = w :=
  (BitVec.extractLsb'_append_extractLsb'_eq_extractLsb' rfl).trans BitVec.extractLsb'_eq_self

@[simp] theorem cmdFields_cmdWordOf (c : CmdWord) : cmdFields (cmdWordOf c) = c :=
  congrArg₂ CmdWord.mk BitVec.extractLsb'_append_eq_left BitVec.extractLsb'_append_eq_right

theorem cmdFields_eq_iff {w : Word} {c : CmdWord} : cmdFields w = c ↔ w = cmdWordOf c :=
  ⟨fun h => by rw [← h, cmdWordOf_cmdFields], fun h => by rw [h, cmdFields_cmdWordOf]⟩

/-! ### What the decoder accepts (R131, R132) -/

/-- The per-command laws of the command word, as one statement about every command. -/
theorem commandWord_statement (i : Instr) : Laws.CommandWord.Statement i := by
  cases i with
  | keyLoad => exact Laws.CommandWord.keyLoad
  | keyClear => exact Laws.CommandWord.keyClear
  | sealData => exact Laws.CommandWord.sealData
  | openRecord => exact Laws.CommandWord.openRecord

theorem decodeOp_op (i : Instr) : decodeOp i.op = .ok i := by
  obtain ⟨-, -, hop⟩ := commandWord_statement i
  exact hop

/-- An opcode selects a command exactly when it is the command's own (R131). -/
theorem decodeOp_eq_ok_iff {op : BitVec 4} {i : Instr} : decodeOp op = .ok i ↔ op = i.op := by
  refine ⟨fun h => ?_, fun h => h ▸ decodeOp_op i⟩
  unfold decodeOp at h
  split_ifs at h with hload hclear hseal hopen <;> cases h <;> assumption

theorem decode_of_reserved_eq_zero {w : Word} (h : w.extractLsb' 4 28 = 0) :
    decode w = decodeOp (w.extractLsb' 0 4) :=
  if_pos (by simpa [cmdFields, rsvZero] using h)

/-- The decoder gives a command exactly when the word's fields are the command's, `RSV` and `OP` both. -/
theorem decode_eq_ok_iff_cmdFields {w : Word} {i : Instr} : decode w = .ok i ↔ cmdFields w = i.cmdWord := by
  by_cases hrsv : w.extractLsb' 4 28 = 0
  · rw [decode_of_reserved_eq_zero hrsv, decodeOp_eq_ok_iff]
    simp [cmdFields, Instr.cmdWord, hrsv]
  · rw [decode_of_reserved_ne_zero hrsv]
    simpa [cmdFields, Instr.cmdWord] using fun h => absurd h hrsv

/-- The decoder gives a command for the word the encoder makes of it, and for no other word (R132). -/
theorem decode_eq_ok_iff {w : Word} {i : Instr} : decode w = .ok i ↔ w = encode i :=
  decode_eq_ok_iff_cmdFields.trans cmdFields_eq_iff

/-! ### The four words (R132) -/

theorem encode_keyLoad : encode .keyLoad = 0x00000001 := by decide

theorem encode_keyClear : encode .keyClear = 0x00000002 := by decide

theorem encode_sealData : encode .sealData = 0x00000003 := by decide

theorem encode_openRecord : encode .openRecord = 0x00000004 := by decide

/-- Settles O1: a word decodes to a command exactly when it is the command's encoding, one of the four words. -/
theorem fourWordsSelectTheCommands : Obligations.FourWordsSelectTheCommands := by
  intro w i
  rw [decode_eq_ok_iff]
  cases i with
  | keyLoad => simp [encode_keyLoad]
  | keyClear => simp [encode_keyClear]
  | sealData => simp [encode_sealData]
  | openRecord => simp [encode_openRecord]

end Sys2Proof.Machine
end

section
/-! SUPPORT. What the completion of a command leaves (40_commands.md R152), and the commands that only complete: the
acceptance of a word (R150 to R153), KEY_LOAD and KEY_CLEAR (R160, R165) and the illegal command (R190). -/

namespace Sys2Proof.Machine

/-! ### A completion and its frame (R152) -/

theorem completed_complete (e : Err) (out : Bytes) (s : State) (n : Fin 17) (c : BitVec 2) :
    (complete e out s n c).completed e out n c :=
  ⟨rfl, rfl, rfl, rfl, rfl, rfl, rfl, rfl, rfl⟩

theorem commandFrame_complete (e : Err) (out : Bytes) (s : State) (n : Fin 17) (c : BitVec 2) :
    s.commandFrame (complete e out s n c) :=
  ⟨rfl, rfl, rfl, rfl, rfl, rfl, rfl, rfl, fun _ => rfl, rfl, rfl, rfl⟩

theorem commandFrame_requestRng (snap : Snapshot) (s : State) : s.commandFrame (requestRng snap s) :=
  ⟨rfl, rfl, rfl, rfl, rfl, rfl, rfl, rfl, fun _ => rfl, rfl, rfl, rfl⟩

/-! ### The last cycle of a running command (R470) -/

/-- With no action from outside, a running command in its last cycle has its effect. -/
theorem step_run_last_cycle {s : State} {snap : Snapshot} (hp : s.phase = .run snap) (hc : s.cyclesLeft ≤ 1)
    (hi : s.inputs = []) : step s = .next (runEffect snap s) := by
  have hstep : step s = clockCycle s := by rw [step, advance, hi]
  rw [hstep, clockCycle_eq, cycleEffect, hp]
  exact congrArg _ (if_neg (by omega))

/-- A snapshot's word decodes to a command exactly when its two fields are the command's (30_encoding.md R132). -/
theorem decode_cmd_eq_ok_iff {snap : Snapshot} {i : Instr} : decode snap.cmd = .ok i ↔ snap.word = i.cmdWord := by
  rw [decode_eq_ok_iff_cmdFields, Snapshot.cmd, cmdFields_cmdWordOf]

/-- A word with a nonzero `RSV` or an unassigned `OP` is no command (R133). -/
theorem decode_cmd_error_of_illegal {snap : Snapshot}
    (h : snap.word.rsv ≠ 0 ∨ snap.word.op = 0x0 ∨ 0x5 ≤ snap.word.op) : ∃ e, decode snap.cmd = .error e := by
  cases hd : decode snap.cmd with
  | error e => exact ⟨e, rfl⟩
  | ok i =>
    rw [decode_cmd_eq_ok_iff.mp hd] at h
    cases i <;> exact absurd h (by decide)

theorem runEffect_of_error {snap : Snapshot} {e : DecodeError} (h : decode snap.cmd = .error e) (s : State) :
    runEffect snap s = complete .illegalCommand [] s 0 0 := by
  rw [runEffect, h]

theorem runEffect_of_ok {snap : Snapshot} {i : Instr} (h : decode snap.cmd = .ok i) (s : State) :
    runEffect snap s = commandEffect i snap s := by
  rw [runEffect, h]

/-- Settles O6: the decoder rejects the word, and the illegal command is one completion. -/
theorem illegalCommandCompletes : Obligations.IllegalCommandCompletes := by
  intro s snap hp hc hi hword
  obtain ⟨e, hd⟩ := decode_cmd_error_of_illegal hword
  refine ⟨_, step_run_last_cycle hp hc hi, ?_⟩
  rw [runEffect_of_error hd]
  exact ⟨completed_complete .., commandFrame_complete .., id, rfl, rfl, rfl⟩

/-! ### KEY_LOAD and KEY_CLEAR (R160, R165) -/

theorem vecOfBytes_toList {n : Nat} {b : Bytes} (h : b.length = n) : (vecOfBytes n b).toList = b := by
  subst h
  exact List.take_left

/-- `enc_key` is the first half of a 64-byte key (10_state.md R45). -/
theorem keyStoreOf_encKey (k : Vector Byte 64) : (keyStoreOf k).encKey.toList = k.toList.take 32 :=
  vecOfBytes_toList (by simp)

/-- `mac_key` is the second half (R45). -/
theorem keyStoreOf_macKey (k : Vector Byte 64) : (keyStoreOf k).macKey.toList = k.toList.drop 32 := by
  have hlen : (k.toList.drop 32).length = 32 := by simp
  have htake : (k.toList.drop 32).take 32 = k.toList.drop 32 := List.take_of_length_le hlen.le
  exact (vecOfBytes_toList (by rw [htake, hlen])).trans htake

/-- The frame of KEY_LOAD and KEY_CLEAR: a completion of a state that differs in the key store, KSTAGE and KEY_LEN
alone. -/
theorem commandFrame_complete_of_keys (e : Err) (out : Bytes) (s : State) (k : KeyStore) (stage : Vector Byte 64)
    (len : BitVec 16) (n : Fin 17) (c : BitVec 2) :
    s.commandFrame (complete e out { s with keys := k, kstage := stage, keyLen := len } n c) :=
  ⟨rfl, rfl, rfl, rfl, rfl, rfl, rfl, rfl, fun _ => rfl, rfl, rfl, rfl⟩

/-- Settles O24, by the two completions of KEY_LOAD. -/
theorem keyLoadCompletes : Obligations.KeyLoadCompletes := by
  intro s snap hp
  refine ⟨_, exec_run .keyLoad s snap hp, ?_⟩
  rw [commandEffect]
  rcases completeKeyLoad_cases snap s with ⟨hlen, h⟩ | ⟨hlen, h⟩ <;> rw [h]
  · exact ⟨rfl, rfl, commandFrame_complete_of_keys .., fun _ => ⟨keyStoreOf_encKey _, keyStoreOf_macKey _, rfl,
      completed_complete ..⟩, fun hne => absurd hlen hne⟩
  · exact ⟨rfl, rfl, commandFrame_complete_of_keys .., fun heq => absurd heq hlen, fun _ => ⟨rfl, rfl, rfl,
      completed_complete ..⟩⟩

/-- Settles O25, by the one completion of KEY_CLEAR. -/
theorem keyClearCompletes : Obligations.KeyClearCompletes := by
  intro s snap hp
  refine ⟨_, exec_run .keyClear s snap hp, ?_⟩
  rw [commandEffect, completeKeyClear_eq]
  exact ⟨rfl, rfl, rfl, rfl, rfl, commandFrame_complete_of_keys .., completed_complete ..⟩

/-! ### CMD writes (R150 to R153) -/

theorem busWrite_cmd (s : State) (w : Word) : busWrite s 0x0008 w 0b1111 = (writeCmd w s, .okay) :=
  busWrite_ok s _ w rfl

theorem writeCmd_idle {s : State} (h : s.phase = .idle) (w : Word) : writeCmd w s = accept w s := by
  simp [writeCmd, (busy_eq_false s).mpr h]

theorem writeCmd_busy {s : State} (h : s.phase ≠ .idle) (w : Word) : writeCmd w s = dropCommand s := by
  simp [writeCmd, (busy_eq_true s).mpr h]

/-- The step of a CMD write: the effect of the write, and OKAY to the host. -/
theorem step_cmd_write {s : State} {w : Word} {rest : List Input}
    (h : s.inputs = .busWrite 0x0008 w 0b1111 :: rest) :
    step s = .next { writeCmd w (s.withInputs rest) with reply := some (.write .okay) } := by
  rw [step, advance, h]
  simp only [applyInput]
  rw [← State.withInputs, busWrite_cmd]

@[simp] theorem ibufPrefix_length (s : State) (n : Nat) : (ibufPrefix s n).length = n := by simp [ibufPrefix]

theorem ibufPrefix_getD (s : State) {n j : Nat} (h : j < n) : (ibufPrefix s n).getD j 0 = ibufByte s j := by
  simp [ibufPrefix, h]

/-- Settles O8: the step is `accept`, whose snapshot holds the first bytes of IBUF. -/
theorem cmdWriteWhileIdleAccepts : Obligations.CmdWriteWhileIdleAccepts := by
  intro s w rest hp hi
  refine ⟨_, takeSnapshot (s.withInputs rest) (cmdFields w), step_cmd_write hi, ?_⟩
  rw [writeCmd_idle (by exact hp)]
  exact ⟨rfl, rfl, rfl, rfl, rfl, rfl, rfl, rfl, ibufPrefix_length _ _,
    fun j hj => ibufPrefix_getD _ (by rwa [takeSnapshot, ibufPrefix_length] at hj), rfl, rfl, rfl, rfl, rfl, rfl, rfl,
    rfl, rfl, rfl, rfl, rfl, rfl, rfl, fun _ => rfl, rfl, rfl, rfl, rfl, rfl, rfl, rfl, rfl⟩

/-- Settles O9: the step is `dropCommand`. -/
theorem cmdWriteWhileBusyIsDropped : Obligations.CmdWriteWhileBusyIsDropped := by
  intro s w rest hp hi
  rw [step_cmd_write hi, writeCmd_busy (by exact hp)]
  rfl

end Sys2Proof.Machine
end

section
/-! SUPPORT. Decryption undoes encryption: the S-box, the column mix, the rounds, the cipher and CBC (41_aes256.md
R204 to R213, 43_cbc_padding_compare.md R301, R302), unpadding undoes padding (R303, R304), and the comparator on
equal operands (R305). -/

namespace Sys2Proof.Machine

/-! ### The round transformations (R204 to R210) -/

theorem invSbox_sbox (a : Byte) : invSbox (sbox a) = a := by
  have h : ∀ i : Fin 256, invSbox (sbox (BitVec.ofFin i)) = BitVec.ofFin i := by decide +kernel
  exact h a.toFin

theorem invSubBytes_subBytes (b : Block) : invSubBytes (subBytes b) = b := by
  simp [invSubBytes, subBytes, Block.mapCols, Col.map, invSbox_sbox]

/-- The first row of the product of the matrices of R210 and R209, entry by entry: 1, 0, 0, 0. Both matrices are
circulant, so the other rows are this one with the bytes of the column rotated. -/
theorem mixProduct_entries (a : Byte) :
    mul0e (xtime a) ^^^ mul0b a ^^^ mul0d a ^^^ mul09 (mul03 a) = a ∧
    mul0e (mul03 a) ^^^ mul0b (xtime a) ^^^ mul0d a ^^^ mul09 a = 0 ∧
    mul0e a ^^^ mul0b (mul03 a) ^^^ mul0d (xtime a) ^^^ mul09 a = 0 ∧
    mul0e a ^^^ mul0b a ^^^ mul0d (mul03 a) ^^^ mul09 (xtime a) = 0 := by
  have h : ∀ i : Fin 256, let a := BitVec.ofFin i
      mul0e (xtime a) ^^^ mul0b a ^^^ mul0d a ^^^ mul09 (mul03 a) = a ∧
      mul0e (mul03 a) ^^^ mul0b (xtime a) ^^^ mul0d a ^^^ mul09 a = 0 ∧
      mul0e a ^^^ mul0b (mul03 a) ^^^ mul0d (xtime a) ^^^ mul09 a = 0 ∧
      mul0e a ^^^ mul0b a ^^^ mul0d (mul03 a) ^^^ mul09 (xtime a) = 0 := by decide +kernel
  exact h a.toFin

/-- One row of `InvMixColumns` on a mixed column gives the byte of that row back: the products are linear, and the
contributions of each byte are the entries of the matrix product. -/
theorem invMixColumn_row_mixColumn (a b c d : Byte) :
    mul0e (xtime a ^^^ mul03 b ^^^ c ^^^ d) ^^^ mul0b (a ^^^ xtime b ^^^ mul03 c ^^^ d) ^^^
      mul0d (a ^^^ b ^^^ xtime c ^^^ mul03 d) ^^^ mul09 (mul03 a ^^^ b ^^^ c ^^^ xtime d) = a := by
  obtain ⟨ha, -, -, -⟩ := mixProduct_entries a
  obtain ⟨-, hb, -, -⟩ := mixProduct_entries b
  obtain ⟨-, -, hc, -⟩ := mixProduct_entries c
  obtain ⟨-, -, -, hd⟩ := mixProduct_entries d
  simp only [mul0e_xor, mul0b_xor, mul0d_xor, mul09_xor]
  calc
    _ = (mul0e (xtime a) ^^^ mul0b a ^^^ mul0d a ^^^ mul09 (mul03 a)) ^^^
        (mul0e (mul03 b) ^^^ mul0b (xtime b) ^^^ mul0d b ^^^ mul09 b) ^^^
        (mul0e c ^^^ mul0b (mul03 c) ^^^ mul0d (xtime c) ^^^ mul09 c) ^^^
        (mul0e d ^^^ mul0b d ^^^ mul0d (mul03 d) ^^^ mul09 (xtime d)) := by ac_rfl
    _ = a := by simp [ha, hb, hc, hd]

theorem invMixColumn_mixColumn (x : Col) : invMixColumn (mixColumn x) = x := by
  obtain ⟨a, b, c, d⟩ := x
  have h0 := invMixColumn_row_mixColumn a b c d
  have h1 := invMixColumn_row_mixColumn b c d a
  have h2 := invMixColumn_row_mixColumn c d a b
  have h3 := invMixColumn_row_mixColumn d a b c
  simp only [invMixColumn, mixColumn, Col.mk.injEq]
  exact ⟨h0, Eq.trans (by ac_rfl) h1, Eq.trans (by ac_rfl) h2, Eq.trans (by ac_rfl) h3⟩

theorem invMixColumns_mixColumns (b : Block) : invMixColumns (mixColumns b) = b := by
  simp [invMixColumns, mixColumns, Block.mapCols, invMixColumn_mixColumn]

/-! ### The cipher (R212, R213) -/

/-- One round of the inverse cipher undoes one round of the cipher, both taken at the row shift inside a round. -/
theorem decRound_encRound (w : List Col) (s : Block) (r : Nat) :
    decRound w (shiftRows (subBytes (encRound w s r))) r = shiftRows (subBytes s) := by
  rw [decRound, invShiftRows_shiftRows, invSubBytes_subBytes, encRound, addRoundKey_addRoundKey,
    invMixColumns_mixColumns]

theorem foldl_decRound_encRound (w : List Col) (l : List Nat) (s : Block) :
    l.reverse.foldl (decRound w) (shiftRows (subBytes (l.foldl (encRound w) s))) = shiftRows (subBytes s) := by
  induction l generalizing s with
  | nil => rfl
  | cons r l ih =>
    rw [List.reverse_cons, List.foldl_append, List.foldl_cons (l := l), ih, List.foldl_cons, List.foldl_nil]
    exact decRound_encRound w s r

theorem invCipherBlock_cipherBlock (w : List Col) (b : Block) : invCipherBlock w (cipherBlock w b) = b := by
  simp only [invCipherBlock, cipherBlock]
  rw [addRoundKey_addRoundKey, foldl_decRound_encRound, invShiftRows_shiftRows, invSubBytes_subBytes,
    addRoundKey_addRoundKey]

/-! ### CBC (R301, R302) -/

theorem cbcDecBlocks_cbcEncBlocks (w : List Col) (cv : Block) (l : List Block) :
    cbcDecBlocks w cv (cbcEncBlocks w cv l) = l := by
  induction l generalizing cv with
  | nil => rfl
  | cons p l ih =>
    simp only [cbcEncBlocks, cbcDecBlocks]
    rw [invCipherBlock_cipherBlock, Block.xor_xor, ih]

/-- Decryption undoes encryption of whole blocks. -/
theorem cbcD_cbcE (k iv p : Bytes) (h : p.length % 16 = 0) : cbcD k iv (cbcE k iv p) = p := by
  rw [cbcD, cbcE, chunks_flatMap, cbcDecBlocks_cbcEncBlocks, flatMap_chunks p h]

/-! ### Padding and the comparator (R303 to R305) -/

/-- The last byte of a padded sequence, as a number. -/
theorem toNat_padByte_pad (p : Bytes) : (padByte (pad p)).toNat = 16 - p.length % 16 := by
  rw [padByte_pad, BitVec.toNat_ofNat]
  omega

/-- Without the number of bytes that its last byte names, a padded sequence has the length of the sequence. -/
theorem pad_length_sub_padByte (p : Bytes) : (pad p).length - (padByte (pad p)).toNat = p.length := by
  rw [toNat_padByte_pad, pad_length, pad16]
  omega

theorem unpad_pad (p : Bytes) : unpad (pad p) = p := by
  rw [unpad, pad_length_sub_padByte]
  exact List.take_left

theorem padOk_pad (p : Bytes) : padOk (pad p) = true := by
  have hdrop : (pad p).drop p.length = List.replicate (16 - p.length % 16) (padByte (pad p)) := by
    rw [padByte_pad]
    exact List.drop_left
  have hrange : 1 ≤ (padByte (pad p)).toNat ∧ (padByte (pad p)).toNat ≤ 16 := by
    rw [toNat_padByte_pad]
    omega
  simp only [padOk, pad_length_sub_padByte, hdrop]
  simp [hrange]

theorem ctEq_self (a : Bytes) : ctEq a a = true := by
  simp [ctEq, ctAcc]

end Sys2Proof.Machine
end

section
/-! SUPPORT. SEAL and OPEN by their rules (40_commands.md R170, R180), what follows of SEAL's output and of OPENs that
fail, and that a command's result is a function of its snapshot and the RNG answer (R155). -/

namespace Sys2Proof.Machine

/-! ### SEAL (R170, R171) -/

theorem sealLengthOk_eq_false_iff {cfg : Config} {snap : Snapshot} :
    sealLengthOk cfg snap = false ↔ cfg.bufBytes < snap.inLen.toNat + 49 :=
  decide_eq_false_iff_not.trans Nat.not_le

theorem sealLengthOk_eq_true_iff {cfg : Config} {snap : Snapshot} :
    sealLengthOk cfg snap = true ↔ snap.inLen.toNat + 49 ≤ cfg.bufBytes :=
  decide_eq_true_iff

/-- An engine step of SEAL writes nothing but the phase, the RNG port and what a completion writes (R170). -/
theorem stepSeal_frame (snap : Snapshot) (s : State) :
    s.commandFrame (stepSeal snap s) ∧ (stepSeal snap s).keys = s.keys ∧ (stepSeal snap s).kstage = s.kstage ∧
      (stepSeal snap s).keyLen = s.keyLen := by
  rcases stepSeal_cases snap s with ⟨-, h⟩ | ⟨-, -, h⟩ | ⟨-, -, -, h⟩ | ⟨a, -, -, -, -, h⟩ |
    ⟨a, -, -, -, -, h⟩ <;> rw [h]
  · exact ⟨commandFrame_complete .., rfl, rfl, rfl⟩
  · exact ⟨commandFrame_complete .., rfl, rfl, rfl⟩
  · exact ⟨commandFrame_requestRng .., rfl, rfl, rfl⟩
  · exact ⟨commandFrame_complete .., rfl, rfl, rfl⟩
  · exact ⟨commandFrame_complete .., rfl, rfl, rfl⟩

/-- Settles O27, by the five cases of an engine step of SEAL. -/
theorem sealFollowsItsRule : Obligations.SealFollowsItsRule := by
  intro s snap hp
  obtain ⟨hframe, hkeys, hstage, hlen⟩ := stepSeal_frame snap s
  refine ⟨_, exec_run .sealData s snap hp, hframe, hkeys, hstage, hlen, ?_⟩
  rw [commandEffect]
  rcases stepSeal_cases snap s with ⟨hv, h⟩ | ⟨hv, hl, h⟩ | ⟨hv, hl, ha, h⟩ | ⟨a, hv, hl, ha, hc, h⟩ |
    ⟨a, hv, hl, ha, hc, h⟩ <;> rw [h]
  · rw [if_pos hv]
    exact completed_complete ..
  · rw [if_neg (by simp [hv]), if_pos (sealLengthOk_eq_false_iff.mp hl)]
    exact completed_complete ..
  all_goals rw [if_neg (by simp [hv]), if_neg (Nat.not_lt.mpr (sealLengthOk_eq_true_iff.mp hl)), ha]
  · rfl
  · exact (if_pos hc).mpr (completed_complete ..)
  · exact (if_neg hc).mpr (completed_complete ..)

/-- A SEAL that completes with OK passed its checks, had a full answer, and gives the record. -/
theorem stepSeal_ok {snap : Snapshot} {s : State} (hidle : (stepSeal snap s).phase = .idle)
    (hok : (stepSeal snap s).statusErr = .ok) :
    snap.keys.valid = true ∧ snap.inLen.toNat + 49 ≤ s.cfg.bufBytes ∧ ∃ a : RngAnswer,
      stepSeal snap s = complete .ok (sealRecord snap.encKey snap.macKey a.iv snap.input) s 16 0 := by
  rcases stepSeal_cases snap s with ⟨-, h⟩ | ⟨-, -, h⟩ | ⟨-, -, -, h⟩ | ⟨a, -, -, -, -, h⟩ |
    ⟨a, hv, hl, -, -, h⟩
  · simp [h] at hok
  · simp [h] at hok
  · simp [h] at hidle
  · simp [h] at hok
  · exact ⟨hv, sealLengthOk_eq_true_iff.mp hl, a, h⟩

/-- A SEAL that completes with OK, of a snapshot that holds its input. -/
theorem exec_seal_ok {s t : State} {snap : Snapshot} (hp : s.phase = .run snap)
    (hdata : snap.data.length = min snap.inLen.toNat s.cfg.bufBytes) (hexec : exec .sealData s = .next t)
    (hidle : t.phase = .idle) (hok : t.statusErr = .ok) :
    snap.keys.valid = true ∧ snap.data.length = snap.inLen.toNat ∧ snap.data.length + 49 ≤ s.cfg.bufBytes ∧
      ∃ a : RngAnswer, t.obuf = sealRecord snap.encKey snap.macKey a.iv snap.data ∧
        t.outLen = BitVec.ofNat 16 t.obuf.length := by
  rw [exec_run .sealData s snap hp] at hexec
  obtain rfl := Host.Outcome.next.inj hexec
  obtain ⟨hv, hl, a, h⟩ := stepSeal_ok hidle hok
  obtain ⟨hinput, hlen⟩ := snap.input_eq s.cfg hdata (by omega)
  rw [hinput] at h
  refine ⟨hv, hlen, by omega, a, ?_⟩
  rw [commandEffect, h]
  exact ⟨rfl, rfl⟩

theorem sealRecord_length_le {cfg : Config} (hl : cfg.legal = true) (ek mk : Bytes) (a : RngAnswer) {p : Bytes}
    (hp : p.length + 49 ≤ cfg.bufBytes) : (sealRecord ek mk a.iv p).length ≤ cfg.bufBytes := by
  simp only [Config.legal, Bool.and_eq_true, decide_eq_true_eq, beq_iff_eq] at hl
  obtain ⟨-, hmod⟩ := hl
  rw [sealRecord_length ek mk a.iv p a.iv_length, pad16]
  omega

/-- Settles O29, by the length of the record. -/
theorem sealOutputLength : Obligations.SealOutputLength := by
  intro s t snap hp hl hdata hexec hidle hok
  obtain ⟨-, hlen, hfits, a, hout, hcount⟩ := exec_seal_ok hp hdata hexec hidle hok
  have hrec := sealRecord_length snap.encKey snap.macKey a.iv snap.data a.iv_length
  have hle := sealRecord_length_le hl snap.encKey snap.macKey a hfits
  have hmax := bufBytes_lt_of_legal hl
  rw [← hout] at hrec hle
  have hcountNat : t.outLen.toNat = t.obuf.length := by
    rw [hcount, BitVec.toNat_ofNat, Nat.mod_eq_of_lt (by omega)]
  rw [hcountNat, hrec, hlen]
  rw [hlen] at hrec
  refine ⟨rfl, rfl, ?_, by omega⟩
  rw [pad16]
  omega

/-! ### OPEN (R180) -/

/-- The code and the output of an OPEN, by the checks in their order (R180, R405). -/
def openResult (cfg : Config) (snap : Snapshot) : Err × Bytes :=
  let c := recordCiphertext snap.input
  let pp := cbcD snap.encKey (recordIv snap.input) c
  if snap.keys.valid = false then (.keyNotLoaded, [])
  else if cfg.bufBytes < snap.inLen.toNat then (.lengthOutOfRange, [])
  else if snap.inLen.toNat < 48 then (.ciphertextTooShort, [])
  else if ctEq (recordTag snap.input) (expectedTag snap) = false then (.authenticationFailed, [])
  else if c.length = 0 ∨ c.length % 16 ≠ 0 then (paddingError snap, [])
  else if padOk pp = false then (paddingError snap, [])
  else (.ok, unpad pp)

theorem openLengthOk_eq_false_iff {cfg : Config} {snap : Snapshot} :
    openLengthOk cfg snap = false ↔ cfg.bufBytes < snap.inLen.toNat :=
  decide_eq_false_iff_not.trans Nat.not_le

theorem openLongEnough_eq_false_iff {snap : Snapshot} : openLongEnough snap = false ↔ snap.inLen.toNat < 48 :=
  decide_eq_false_iff_not.trans Nat.not_le

/-- OPEN is one completion, with the result of its checks. -/
theorem completeOpen_eq (snap : Snapshot) (s : State) :
    completeOpen snap s = complete (openResult s.cfg snap).1 (openResult s.cfg snap).2 s 0 0 := by
  unfold openResult completeOpen completeDecrypt
  simp only [Bool.not_eq_true', openLengthOk_eq_false_iff, openLongEnough_eq_false_iff, fail_eq]
  split_ifs <;> rfl

theorem exec_open {u : State} {snap : Snapshot} (hp : u.phase = .run snap) :
    exec .openRecord u = .next (complete (openResult u.cfg snap).1 (openResult u.cfg snap).2 u 0 0) := by
  rw [exec_run .openRecord u snap hp, commandEffect, completeOpen_eq]

/-- A completion whose code and output depend on a check is one completion or the other. -/
theorem completed_ite {t : State} {p : Prop} [Decidable p] {a b : Err × Bytes} :
    t.completed (if p then a else b).1 (if p then a else b).2 0 0 ↔
      if p then t.completed a.1 a.2 0 0 else t.completed b.1 b.2 0 0 := by
  split <;> rfl

/-- Settles O33: OPEN is one completion, with the code and the output that its checks give in order. -/
theorem openFollowsItsRule : Obligations.OpenFollowsItsRule := by
  intro s snap hp
  have h := completed_complete (openResult s.cfg snap).1 (openResult s.cfg snap).2 s 0 0
  refine ⟨_, exec_open hp, commandFrame_complete .., rfl, rfl, rfl, ?_⟩
  generalize complete (openResult s.cfg snap).1 (openResult s.cfg snap).2 s 0 0 = t at h ⊢
  simp only [openResult, completed_ite] at h
  exact h

/-! ### OPENs that fail (R182, R407) -/

/-- An OPEN past its key and length checks fails with AuthenticationFailed when the tag does not match, and with
STRICT = 1 whenever it does not succeed. -/
theorem openResult_authenticationFailed {cfg : Config} {snap : Snapshot} (hv : snap.keys.valid = true)
    (hlow : 48 ≤ snap.inLen.toNat) (hhigh : snap.inLen.toNat ≤ cfg.bufBytes)
    (h : ctEq (recordTag snap.input) (expectedTag snap) = false ∨
      (snap.strict = true ∧ (openResult cfg snap).1 ≠ .ok)) :
    openResult cfg snap = (.authenticationFailed, []) := by
  unfold openResult at h ⊢
  rw [if_neg (by simp [hv]), if_neg (by omega), if_neg (by omega)] at h ⊢
  rcases h with htag | ⟨hstrict, hne⟩
  · exact if_pos htag
  · have hcode : paddingError snap = .authenticationFailed := if_pos hstrict
    rw [hcode] at hne ⊢
    split_ifs at hne ⊢
    · rfl
    · rfl
    · rfl
    · exact absurd rfl hne

theorem commandLatency_open {cfg : Config} {snap : Snapshot} (hd : decode snap.cmd = .ok .openRecord)
    (hv : snap.keys.valid = true) (hlow : 48 ≤ snap.inLen.toNat) (hhigh : snap.inLen.toNat ≤ cfg.bufBytes) :
    commandLatency cfg snap = latencyOpen cfg snap.inLen.toNat := by
  simp only [commandLatency, hd, hv, Bool.not_eq_true', openLengthOk_eq_false_iff, openLongEnough_eq_false_iff]
  rw [if_neg (by simp), if_neg (by omega), if_neg (by omega)]
  rfl

/-- Settles O36: both records give the one result of a failed authentication, and both latencies are that of the one
length. -/
theorem tamperedRecordsLookAlike : Obligations.TamperedRecordsLookAlike := by
  intro s t p q hp hq hcfg hdp hdq hkeys hv hstrict hlen hlow hhigh htp htq
  have hvq : q.keys.valid = true := hkeys ▸ hv
  have hlowq : 48 ≤ q.inLen.toNat := hlen ▸ hlow
  have hhighq : q.inLen.toNat ≤ t.cfg.bufBytes := hcfg ▸ hlen ▸ hhigh
  have hrp := openResult_authenticationFailed hv hlow hhigh (.inl htp)
  have hrq : openResult t.cfg q = (.authenticationFailed, []) := by
    refine openResult_authenticationFailed hvq hlowq hhighq (htq.imp_right ?_)
    rintro ⟨hs, hno⟩
    exact ⟨hs, fun hok => hno ⟨_, exec_open hq, hok⟩⟩
  refine ⟨⟨_, _, exec_open hp, exec_open hq, ?_⟩, ?_⟩
  · rw [hrp, hrq]
    exact ⟨rfl, rfl, rfl, rfl, rfl, rfl⟩
  · rw [commandLatency_open hdp hv hlow hhigh, commandLatency_open hdq hvq hlowq hhighq, hlen, hcfg]

/-! ### OPEN of what SEAL produced (R183) -/

/-- A snapshot whose data are its whole input. -/
theorem Snapshot.input_eq_data {snap : Snapshot} (h : snap.inLen.toNat = snap.data.length) : snap.input = snap.data :=
  List.take_of_length_le h.ge

theorem sealRecord_fields (ek mk p : Bytes) {iv : Bytes} (hiv : iv.length = 16) :
    recordIv (sealRecord ek mk iv p) = iv ∧ recordCiphertext (sealRecord ek mk iv p) = cbcE ek iv (pad p) ∧
      recordTag (sealRecord ek mk iv p) = tagOf mk (iv ++ cbcE ek iv (pad p)) :=
  record_fields iv _ _ hiv (tagOf_length _ _)

/-- A padded sequence has whole blocks (R303). -/
theorem pad_length_mod (p : Bytes) : (pad p).length % 16 = 0 := by rw [pad_length, pad16_mod]

/-- An OPEN of a record that was sealed under the snapshot's keys passes every check, whatever STRICT is. -/
theorem openResult_sealRecord {cfg : Config} {snap : Snapshot} {iv p : Bytes} (hv : snap.keys.valid = true)
    (hhigh : snap.inLen.toNat ≤ cfg.bufBytes) (hlen : snap.inLen.toNat = snap.data.length) (hiv : iv.length = 16)
    (hdata : snap.data = sealRecord snap.encKey snap.macKey iv p) : openResult cfg snap = (.ok, p) := by
  have hinput : snap.input = sealRecord snap.encKey snap.macKey iv p := (Snapshot.input_eq_data hlen).trans hdata
  obtain ⟨hfieldIv, hfieldC, hfieldTag⟩ := sealRecord_fields snap.encKey snap.macKey p hiv
  rw [← hinput] at hfieldIv hfieldC hfieldTag
  have hlow : 48 ≤ snap.inLen.toNat := by
    rw [hlen, hdata, sealRecord_length _ _ _ _ hiv]
    omega
  have htag : ctEq (recordTag snap.input) (expectedTag snap) = true := by
    rw [expectedTag, hfieldIv, hfieldC, hfieldTag, ctEq_self]
  have hblocks : (cbcE snap.encKey iv (pad p)).length = 16 * (p.length / 16 + 1) := by
    rw [cbcE_length _ _ _ (pad_length_mod p), pad_length, pad16]
  simp only [openResult, hfieldIv, hfieldC, htag, cbcD_cbcE _ _ _ (pad_length_mod p), padOk_pad, unpad_pad]
  rw [if_neg (by simp [hv]), if_neg (by omega), if_neg (by omega), if_neg (by simp), if_neg (by omega),
    if_neg (by simp)]

/-- Settles O37: the output of SEAL is a sealed record, which OPEN takes apart again. -/
theorem openOfSealIsThePlaintext : Obligations.OpenOfSealIsThePlaintext := by
  intro s t snap hp hl hdata hexec hidle hok u snap' hpu hcfg hkeys hrec hinLen
  obtain ⟨hv, hlen, hfits, a, hout, hcount⟩ := exec_seal_ok hp hdata hexec hidle hok
  have hle : t.obuf.length ≤ s.cfg.bufBytes := hout ▸ sealRecord_length_le hl snap.encKey snap.macKey a hfits
  have hmax := bufBytes_lt_of_legal hl
  have hlen' : snap'.inLen.toNat = snap'.data.length := by
    rw [hinLen, hcount, hrec, BitVec.toNat_ofNat, Nat.mod_eq_of_lt (by omega)]
  have hrecord : snap'.data = sealRecord snap'.encKey snap'.macKey a.iv snap.data := by
    rw [hrec, hout, Snapshot.encKey, Snapshot.encKey, Snapshot.macKey, Snapshot.macKey, hkeys]
  have hresult : openResult u.cfg snap' = (.ok, snap.data) :=
    openResult_sealRecord (hkeys ▸ hv) (by rw [hcfg, hlen', hrec]; exact hle) hlen' a.iv_length hrecord
  refine ⟨_, exec_open hpu, ?_⟩
  rw [hresult]
  refine ⟨rfl, rfl, ?_⟩
  rw [complete_outLen, hlen, BitVec.ofNat_toNat, BitVec.setWidth_eq]

/-! ### A command's result (R155) -/

/-- Two states that a command leaves with the same phase and RNG port and, if it completed, with the same result. -/
def State.sameResult (s t : State) : Prop :=
  s.phase = t.phase ∧ s.rng = t.rng ∧
    (s.phase = .idle → s.statusErr = t.statusErr ∧ s.obuf = t.obuf ∧ s.outLen = t.outLen ∧
      s.statusRngCount = t.statusRngCount ∧ s.statusRngCond = t.statusRngCond)

theorem sameResult_complete (e : Err) (out : Bytes) (s t : State) (n : Fin 17) (c : BitVec 2) :
    (complete e out s n c).sameResult (complete e out t n c) :=
  ⟨rfl, rfl, fun _ => ⟨rfl, rfl, rfl, rfl, rfl⟩⟩

theorem sameResult_requestRng (snap : Snapshot) (s t : State) :
    (requestRng snap s).sameResult (requestRng snap t) :=
  ⟨rfl, rfl, fun h => Phase.noConfusion h⟩

/-- KEY_LOAD's completion, the key store it leaves included, depends on the snapshot alone. -/
theorem completeKeyLoad_determined (snap : Snapshot) (s t : State) :
    (completeKeyLoad snap s).sameResult (completeKeyLoad snap t) ∧
      (completeKeyLoad snap s).keys = (completeKeyLoad snap t).keys := by
  rcases completeKeyLoad_cases snap s with ⟨hs, es⟩ | ⟨hs, es⟩ <;>
    rcases completeKeyLoad_cases snap t with ⟨ht, et⟩ | ⟨ht, et⟩
  · rw [es, et]
    exact ⟨sameResult_complete .., rfl⟩
  · exact absurd hs ht
  · exact absurd ht hs
  · rw [es, et]
    exact ⟨sameResult_complete .., rfl⟩

theorem sameResult_stepSeal {snap : Snapshot} {s t : State} (hb : s.cfg.bufBytes = t.cfg.bufBytes)
    (ha : s.rng.answer = t.rng.answer) : (stepSeal snap s).sameResult (stepSeal snap t) := by
  have hl : sealLengthOk s.cfg snap = sealLengthOk t.cfg snap := by rw [sealLengthOk, sealLengthOk, hb]
  unfold stepSeal
  rw [hl, ha]
  cases snap.keys.valid
  · exact sameResult_complete ..
  cases sealLengthOk t.cfg snap
  · exact sameResult_complete ..
  cases t.rng.answer with
  | none => exact sameResult_requestRng ..
  | some a =>
    simp only [completeSeal]
    split_ifs <;> exact sameResult_complete ..

theorem sameResult_completeOpen {snap : Snapshot} {s t : State} (hb : s.cfg.bufBytes = t.cfg.bufBytes) :
    (completeOpen snap s).sameResult (completeOpen snap t) := by
  have hr : openResult s.cfg snap = openResult t.cfg snap := by rw [openResult, openResult, hb]
  rw [completeOpen_eq, completeOpen_eq, hr]
  exact sameResult_complete ..

/-- The result of a command depends on its snapshot, on BUF_BYTES and, for SEAL, on the RNG answer. -/
theorem sameResult_runEffect {snap : Snapshot} {s t : State} (hb : s.cfg.bufBytes = t.cfg.bufBytes)
    (ha : decode snap.cmd = .ok .sealData → s.rng.answer = t.rng.answer) :
    (runEffect snap s).sameResult (runEffect snap t) := by
  cases hd : decode snap.cmd with
  | error e =>
    rw [runEffect_of_error hd, runEffect_of_error hd]
    exact sameResult_complete ..
  | ok i =>
    rw [runEffect_of_ok hd, runEffect_of_ok hd]
    cases i with
    | keyLoad => exact (completeKeyLoad_determined snap s t).1
    | keyClear => exact sameResult_complete ..
    | sealData => exact sameResult_stepSeal hb (ha hd)
    | openRecord => exact sameResult_completeOpen hb

/-- KEY_LOAD and KEY_CLEAR leave a key store that depends on the snapshot alone. -/
theorem runEffect_keys_eq {snap : Snapshot} (s t : State)
    (h : decode snap.cmd = .ok .keyLoad ∨ decode snap.cmd = .ok .keyClear) :
    (runEffect snap s).keys = (runEffect snap t).keys := by
  rcases h with hd | hd <;> rw [runEffect_of_ok hd, runEffect_of_ok hd]
  · exact (completeKeyLoad_determined snap s t).2
  · rfl

/-- Every other word leaves the key store as it was. -/
theorem runEffect_keys_kept {snap : Snapshot} (s : State)
    (h : ¬ (decode snap.cmd = .ok .keyLoad ∨ decode snap.cmd = .ok .keyClear)) :
    (runEffect snap s).keys = s.keys := by
  cases hd : decode snap.cmd with
  | error e => rw [runEffect_of_error hd, complete_keys]
  | ok i =>
    rw [runEffect_of_ok hd]
    cases i with
    | keyLoad => exact absurd (.inl hd) h
    | keyClear => exact absurd (.inr hd) h
    | sealData => exact stepSeal_keys snap s
    | openRecord => exact completeOpen_keys snap s

/-- Settles O38, by what the effect of each command depends on. -/
theorem commandResultsAreDetermined : Obligations.CommandResultsAreDetermined := by
  intro s t s' t' snap hs ht hb ha hrs hrt
  rw [runCommand_run s snap hs] at hrs
  rw [runCommand_run t snap ht] at hrt
  obtain rfl := Host.Outcome.next.inj hrs
  obtain rfl := Host.Outcome.next.inj hrt
  obtain ⟨hphase, hrng, hresult⟩ := sameResult_runEffect hb ha
  exact ⟨hphase, hrng, hresult, runEffect_keys_eq s t,
    fun h => ⟨runEffect_keys_kept s h, runEffect_keys_kept t h⟩⟩

end Sys2Proof.Machine
end

section
/-! SUPPORT. The AES unit against its rules (41_aes256.md R204 to R208): the S-box and the field inverse, the row
shifts in block-byte terms, and key expansion by its recurrence. -/

namespace Sys2Proof.Machine

/-! ### The S-box (R204, R205) -/

/-- The inverse of the field, 0 for 0: `a^254`, the product of `a^2, a^4, …, a^128`, since every nonzero byte has
`a^255 = 1`. -/
def gfInv (a : Byte) : Byte :=
  let a2 := gfMul a a
  let a4 := gfMul a2 a2
  let a8 := gfMul a4 a4
  let a16 := gfMul a8 a8
  let a32 := gfMul a16 a16
  let a64 := gfMul a32 a32
  let a128 := gfMul a64 a64
  gfMul a2 (gfMul a4 (gfMul a8 (gfMul a16 (gfMul a32 (gfMul a64 a128)))))

/-- `gfInv` is the inverse that R204 takes: the product is 1, and 0 goes to 0. -/
theorem gfInv_spec (a : Byte) : (a ≠ 0 ∧ gfMul a (gfInv a) = 1) ∨ (a = 0 ∧ gfInv a = 0) := by
  have h : ∀ i : Fin 256, let a := BitVec.ofFin i
      (a ≠ 0 ∧ gfMul a (gfInv a) = 1) ∨ (a = 0 ∧ gfInv a = 0) := by decide +kernel
  exact h a.toFin

/-- The table of R204 holds the values of its formula. -/
theorem sbox_eq_sboxAffine_gfInv (a : Byte) : sbox a = sboxAffine (gfInv a) := by
  have h : ∀ i : Fin 256, sbox (BitVec.ofFin i) = sboxAffine (gfInv (BitVec.ofFin i)) := by decide +kernel
  exact h a.toFin

/-- On finitely many bytes a left inverse is a right inverse. -/
theorem sbox_invSbox (a : Byte) : sbox (invSbox a) = a := by
  have hinj : Function.Injective sbox := Function.LeftInverse.injective invSbox_sbox
  obtain ⟨b, rfl⟩ := Finite.surjective_of_injective hinj a
  rw [invSbox_sbox]

/-- Settles O49, with `gfInv a` as the inverse of `a`. -/
theorem sboxIsTheAffineInverse : Obligations.SboxIsTheAffineInverse := fun a =>
  ⟨invSbox_sbox a, sbox_invSbox a, gfInv a, gfInv_spec a, sbox_eq_sboxAffine_gfInv a⟩

/-! ### The row shifts (R207) -/

theorem shiftRows_unload_getD (x : Block) {r c : Nat} (hr : r < 4) (hc : c < 4) :
    (shiftRows x).unload.getD (r + 4 * c) 0 = x.unload.getD (r + 4 * ((c + r) % 4)) 0 := by
  interval_cases r <;> interval_cases c <;> rfl

theorem invShiftRows_unload_getD (x : Block) {r c : Nat} (hr : r < 4) (hc : c < 4) :
    (invShiftRows x).unload.getD (r + 4 * c) 0 = x.unload.getD (r + 4 * ((c + 4 - r) % 4)) 0 := by
  interval_cases r <;> interval_cases c <;> rfl

/-- Settles O51: unloading a loaded block gives its bytes. -/
theorem rowShiftsMoveBytes : Obligations.RowShiftsMoveBytes := by
  intro b hb r c hr hc
  have h := shiftRows_unload_getD (Block.load b) hr hc
  have h' := invShiftRows_unload_getD (Block.load b) hr hc
  rw [Block.unload_load b hb] at h h'
  exact ⟨h, h'⟩

/-! ### Key expansion (R208) -/

/-- R208's recurrence: the word at place `i` of group `j`, of the word eight before it and the word before it. -/
def nextKeyWord (i j : Nat) (back prev : Col) : Col :=
  back.xor
    (if i % 8 = 0 then (subWord (rotWord prev)).xor (rcon j)
     else if i % 8 = 4 then subWord prev
     else prev)

/-- The recurrence looks at the place of a word in its group only. -/
theorem nextKeyWord_add_eight (i j : Nat) (back prev : Col) :
    nextKeyWord (i + 8) j back prev = nextKeyWord i j back prev := by
  simp only [nextKeyWord, Nat.add_mod_right]

@[simp] theorem expandEight_length (j : Nat) (w : List Col) : (expandEight j w).length = 8 := rfl

@[simp] theorem expandGroups_length (n j : Nat) (w : List Col) : (expandGroups n j w).length = 8 * n := by
  induction n generalizing j w with
  | zero => rfl
  | succ n ih => simp [expandGroups, ih]; omega

/-- One group of eight words follows the recurrence. -/
theorem expandEight_getD (j : Nat) {w : List Col} (hw : w.length = 8) {i : Nat} (hi : i < 8) (d : Col) :
    (expandEight j w).getD i d = nextKeyWord i j (w.getD i d) ((w ++ expandEight j w).getD (i + 7) d) := by
  match w, hw with
  | [_, _, _, _, _, _, _, _], _ => interval_cases i <;> rfl

/-- The words after a group of eight, counted from its start. -/
theorem append_getD_add_eight {w : List Col} (hw : w.length = 8) (l : List Col) (i : Nat) (d : Col) :
    (w ++ l).getD (i + 8) d = l.getD i d := by
  rw [List.getD_append_right _ _ _ _ (by omega), hw, Nat.add_sub_cancel]

/-- Every group follows the recurrence: the first by its own eight words, the others from the group before them. -/
theorem append_expandGroups_getD (n j : Nat) {w : List Col} (hw : w.length = 8) {i : Nat} (hi : i < 8 * n) (d : Col) :
    let v := w ++ expandGroups n j w
    v.getD (i + 8) d = nextKeyWord i (j + i / 8) (v.getD i d) (v.getD (i + 7) d) := by
  induction n generalizing j w i with
  | zero => omega
  | succ n ih =>
    simp only [expandGroups]
    by_cases hfirst : i < 8
    · have h := expandEight_getD j hw hfirst d
      rw [← List.getD_append (w ++ expandEight j w) (expandGroups n (j + 1) (expandEight j w)) d (i + 7)
        (by simp; omega), List.append_assoc] at h
      rw [append_getD_add_eight hw, Nat.div_eq_of_lt hfirst, List.getD_append _ _ _ _ (by simpa),
        List.getD_append _ _ _ _ (by omega)]
      exact h
    · obtain ⟨i, rfl⟩ := Nat.exists_eq_add_of_le' (Nat.le_of_not_lt hfirst)
      have hdiv : j + (i + 8) / 8 = j + 1 + i / 8 := by omega
      rw [Nat.add_right_comm i 8 7, hdiv, nextKeyWord_add_eight]
      simp only [append_getD_add_eight hw]
      exact ih (j + 1) (expandEight_length j w) (i := i) (by omega)

theorem keyExpansion_length (k : Bytes) : (keyExpansion k).length = 60 := by
  simp [keyExpansion]

theorem keyExpansion_getD (k : Bytes) {i : Nat} (hi : i < 60) (d : Col) :
    (keyExpansion k).getD i d =
      ((List.range 8).map (colAt k) ++ expandGroups 7 1 ((List.range 8).map (colAt k))).getD i d := by
  simp only [keyExpansion, List.getD_eq_getElem?_getD, List.getElem?_take_of_lt hi]

/-- The first eight words are those of the key. -/
theorem keyExpansion_getD_of_lt_eight (k : Bytes) {i : Nat} (hi : i < 8) (d : Col) :
    (keyExpansion k).getD i d = colAt k i := by
  rw [keyExpansion_getD k (by omega), List.getD_append _ _ _ _ (by simpa)]
  simp [List.getD_eq_getElem?_getD, hi]

/-- The words after the first eight follow the recurrence, with the number of their group in the round constant. -/
theorem keyExpansion_getD_of_eight_le (k : Bytes) {i : Nat} (h8 : 8 ≤ i) (hi : i < 60) (d : Col) :
    (keyExpansion k).getD i d =
      nextKeyWord i (i / 8) ((keyExpansion k).getD (i - 8) d) ((keyExpansion k).getD (i - 1) d) := by
  obtain ⟨i, rfl⟩ := Nat.exists_eq_add_of_le' h8
  have hdiv : (i + 8) / 8 = 1 + i / 8 := by omega
  rw [keyExpansion_getD k hi, keyExpansion_getD k (by omega), keyExpansion_getD k (by omega), hdiv,
    nextKeyWord_add_eight]
  exact append_expandGroups_getD 7 1 (by simp) (by omega) d

/-- A word within a sequence is four of its bytes (R200). -/
theorem colAt_bytes (k : Bytes) {i : Nat} (h : 4 * i + 4 ≤ k.length) :
    (colAt k i).bytes = (k.drop (4 * i)).take 4 := by
  simp (disch := omega) only [colAt, Col.bytes, List.getD_eq_getElem, List.drop_eq_getElem_cons, List.take_succ_cons,
    List.take_zero]

/-- Settles O52, by the first eight words and the recurrence of the others. -/
theorem keyScheduleFollowsItsRecurrence : Obligations.KeyScheduleFollowsItsRecurrence := by
  refine ⟨fun k hk => ⟨keyExpansion_length k, fun i hi => ?_, fun i h8 hi => ?_, fun _ _ => rfl⟩,
    fun _ _ _ _ => ⟨rfl, rfl⟩, by decide⟩
  · dsimp only
    rw [keyExpansion_getD_of_lt_eight k hi, colAt_bytes k (by omega)]
  · exact keyExpansion_getD_of_eight_le k h8 hi _

end Sys2Proof.Machine
end

section
/-! SUPPORT. The hash core against its rules (42_sha512_hmac.md R254, R256): the padding of a message and the message
schedule of a block. -/

namespace Sys2Proof.Machine

/-! ### The padding (R254) -/

/-- Big-endian bytes read back as the number they write, as far as they have room for it. -/
theorem bytesOfNatBE_foldl (n v : Nat) :
    (bytesOfNatBE n v).foldl (fun a b => 256 * a + b.toNat) 0 = v % 256 ^ n := by
  induction n generalizing v with
  | zero => simp [bytesOfNatBE, Nat.mod_one]
  | succ n ih =>
    rw [bytesOfNatBE, List.foldl_append, ih, Nat.pow_succ', Nat.mod_mul, Nat.add_comm]
    simp

theorem shaZeros_mod (l : Nat) : (l + 1 + shaZeros l) % 128 = 112 := by
  unfold shaZeros; omega

theorem shaZeros_le {l z : Nat} (h : (l + 1 + z) % 128 = 112) : shaZeros l ≤ z := by
  unfold shaZeros; omega

theorem shaPad_length (m : Bytes) : (shaPad m).length = m.length + 1 + shaZeros m.length + 16 := by
  simp only [shaPad, List.length_append, List.length_singleton, List.length_replicate, bytesOfNatBE_length]

theorem shaPad_length_mod (m : Bytes) : (shaPad m).length % 128 = 0 := by
  have h := shaZeros_mod m.length
  rw [shaPad_length]
  omega

/-- Settles O58, with `shaZeros` zero bytes and the 16 bytes of `bytesOfNatBE`. -/
theorem shaPaddingIsTheLeast : Obligations.ShaPaddingIsTheLeast := by
  intro m
  refine ⟨shaZeros m.length, bytesOfNatBE 16 (8 * m.length), rfl, shaZeros_mod _, fun _ => shaZeros_le,
    bytesOfNatBE_length .., fun hroom => ?_, shaPad_length_mod m⟩
  rw [bytesOfNatBE_foldl]
  exact Nat.mod_eq_of_lt hroom

/-! ### The message schedule (R256) -/

/-- R256's word `W[t]` by the recurrence, from the words `W[0], W[1], …` in `w`. -/
def scheduleWord (w : List Word64) (t : Nat) : Word64 :=
  smallSigma1 (w.getD (t - 2) 0) + w.getD (t - 7) 0 + smallSigma0 (w.getD (t - 15) 0) + w.getD (t - 16) 0

/-- Every word after the first sixteen is the one of R256's recurrence. -/
def FollowsRecurrence (w : List Word64) : Prop :=
  ∀ t, 16 ≤ t → t < w.length → w.getD t 0 = scheduleWord w t

/-- The recurrence looks only at words before the one it gives. -/
theorem scheduleWord_append {w : List Word64} {t : Nat} (h16 : 16 ≤ t) (ht : t ≤ w.length) (l : List Word64) :
    scheduleWord (w ++ l) t = scheduleWord w t := by
  simp (disch := omega) only [scheduleWord, List.getD_append]

/-- Appending the word that the recurrence gives keeps the recurrence. -/
theorem FollowsRecurrence.append_scheduleWord {w : List Word64} (h : FollowsRecurrence w) :
    FollowsRecurrence (w ++ [scheduleWord w w.length]) := by
  intro t h16 ht
  have hle : t ≤ w.length := by simpa [Nat.lt_succ_iff] using ht
  rw [scheduleWord_append h16 hle]
  obtain hlt | rfl := Nat.lt_or_eq_of_le hle
  · rw [List.getD_append _ _ _ _ hlt, h t h16 hlt]
  · simp

/-- Places 1, 6, 14 and 15 of the words newest first are the places that the recurrence looks at. -/
theorem scheduleGo_succ (n : Nat) {w : List Word64} (h16 : 16 ≤ w.length) :
    scheduleGo (n + 1) w = scheduleGo n (scheduleWord w.reverse w.length :: w) := by
  have hback (k : Nat) (hk : k < 16) : w.reverse.getD (w.length - (k + 1)) 0 = w.getD k 0 := by
    rw [List.getD_reverse _ (by omega)]
    congr 1
    omega
  rw [scheduleGo, scheduleWord, hback 1 (by decide), hback 6 (by decide), hback 14 (by decide),
    hback 15 (by decide)]

theorem scheduleGo_length (n : Nat) (w : List Word64) : (scheduleGo n w).length = w.length + n := by
  induction n generalizing w with
  | zero => rfl
  | succ n ih => rw [scheduleGo, ih, List.length_cons]; omega

/-- The words so far stay: further words stand before them, newest first. -/
theorem suffix_scheduleGo (n : Nat) (w : List Word64) : w <:+ scheduleGo n w := by
  induction n generalizing w with
  | zero => exact List.suffix_refl w
  | succ n ih => exact (List.suffix_cons _ w).trans (ih _)

theorem scheduleGo_followsRecurrence (n : Nat) {w : List Word64} (h16 : 16 ≤ w.length)
    (h : FollowsRecurrence w.reverse) : FollowsRecurrence (scheduleGo n w).reverse := by
  induction n generalizing w with
  | zero => exact h
  | succ n ih =>
    rw [scheduleGo_succ n h16]
    refine ih (Nat.le_succ_of_le h16) ?_
    simpa using h.append_scheduleWord

@[simp] theorem schedule_length (m : Bytes) : (schedule m).length = 80 := by
  simp [schedule, scheduleGo_length]

/-- The first sixteen words are the block's. -/
theorem schedule_getD_of_lt (m : Bytes) {t : Nat} (ht : t < 16) : (schedule m).getD t 0 = wordOfBytesBE m t := by
  have hprefix : (List.range 16).map (wordOfBytesBE m) <+: schedule m := by
    rw [schedule, ← List.reverse_suffix, List.reverse_reverse]
    exact suffix_scheduleGo 64 _
  obtain ⟨l, hl⟩ := hprefix
  rw [← hl, List.getD_append _ _ _ _ (by simpa)]
  simp [List.getD_eq_getElem?_getD, ht]

/-- The schedule follows the recurrence, which says nothing yet of the sixteen words it starts from. -/
theorem schedule_followsRecurrence (m : Bytes) : FollowsRecurrence (schedule m) := by
  refine scheduleGo_followsRecurrence 64 (by simp) fun t h16 ht => ?_
  simp only [List.length_reverse, List.length_map, List.length_range] at ht
  omega

/-- Settles O59, by the block's sixteen words and the recurrence of the others. -/
theorem messageScheduleFollowsItsRecurrence : Obligations.MessageScheduleFollowsItsRecurrence := fun m =>
  ⟨schedule_length m, fun _ => schedule_getD_of_lt m,
    fun t h16 ht => schedule_followsRecurrence m t h16 (by rwa [schedule_length])⟩

end Sys2Proof.Machine
end

section
/-! SUPPORT. Padding against its rules (43_cbc_padding_compare.md R303, R304). -/

namespace Sys2Proof.Machine

/-- Before its padding, a padded sequence is the sequence (R303). -/
theorem pad_take_length (p : Bytes) : (pad p).take p.length = p := List.take_left

/-- After the sequence, a padded sequence is the count of the padding bytes, so many times (R303). -/
theorem pad_drop_length (p : Bytes) : (pad p).drop p.length =
    List.replicate (16 - p.length % 16) (BitVec.ofNat 8 (16 - p.length % 16)) := List.drop_left

/-- Settles O55: the number of padding bytes is `16 - p.length % 16`, which is also the byte they hold. -/
theorem unpadInvertsPad : Obligations.UnpadInvertsPad := by
  intro p
  have hlow : 1 ≤ 16 - p.length % 16 := Nat.sub_pos_of_lt (Nat.mod_lt _ (by decide))
  have hhigh : 16 - p.length % 16 ≤ 16 := Nat.sub_le _ _
  exact ⟨padOk_pad p, unpad_pad p, pad_length p, pad_take_length p,
    16 - p.length % 16, hlow, hhigh, rfl, pad_drop_length p⟩

end Sys2Proof.Machine
end

section
/-! SUPPORT. Result codes and the interrupt output (60_exceptions.md R405, R420): the code each command completes with,
check by check, and what raises and lowers `irq`. -/

namespace Sys2Proof.Machine

/-! ### The code of a completion (R405) -/

theorem completeKeyLoad_statusErr (snap : Snapshot) (s : State) :
    (completeKeyLoad snap s).statusErr = if snap.keyLen ≠ 64 then .invalidKeyLength else .ok := by
  rcases completeKeyLoad_cases snap s with ⟨hlen, h⟩ | ⟨hlen, h⟩ <;> rw [h, complete_statusErr]
  · exact (if_neg (not_not.mpr hlen)).symm
  · exact (if_pos hlen).symm

/-- A short answer of the RNG port is one of other than 16 bytes, for none has more (R430). -/
theorem RngAnswer.count_lt_iff (a : RngAnswer) : a.count.val < 16 ↔ a.count ≠ 16 := by
  rw [Ne, Fin.ext_iff]
  omega

/-- The code of an engine step of SEAL that completes: the first of its checks that fails. A SEAL past its two checks
completes only with an answer of the RNG port. -/
theorem stepSeal_statusErr {snap : Snapshot} {s : State} (hidle : (stepSeal snap s).phase = .idle) :
    if snap.keys.valid = false then (stepSeal snap s).statusErr = .keyNotLoaded
    else if s.cfg.bufBytes < snap.inLen.toNat + 49 then (stepSeal snap s).statusErr = .lengthOutOfRange
    else ∃ a, s.rng.answer = some a ∧
      (stepSeal snap s).statusErr = if a.count ≠ 16 then .randomSourceExhausted else .ok := by
  rcases stepSeal_cases snap s with ⟨hv, h⟩ | ⟨hv, hl, h⟩ | ⟨-, -, -, h⟩ | ⟨a, hv, hl, ha, hc, h⟩ |
    ⟨a, hv, hl, ha, hc, h⟩ <;> rw [h] at hidle ⊢
  · rw [if_pos hv, complete_statusErr]
  · rw [if_neg (by simp [hv]), if_pos (sealLengthOk_eq_false_iff.mp hl), complete_statusErr]
  · cases hidle
  all_goals
    rw [if_neg (by simp [hv]), if_neg (Nat.not_lt.mpr (sealLengthOk_eq_true_iff.mp hl))]
    rw [a.count_lt_iff] at hc
    refine ⟨a, ha, ?_⟩
  · rw [if_pos hc, complete_statusErr]
  · rw [if_neg hc, complete_statusErr]

theorem completeOpen_statusErr (snap : Snapshot) (s : State) :
    (completeOpen snap s).statusErr = (openResult s.cfg snap).1 := by
  rw [completeOpen_eq, complete_statusErr]

/-- A code that depends on a check is one code or the other. -/
theorem eq_fst_ite {e : Err} {p : Prop} [Decidable p] {a b : Err × Bytes} :
    e = (if p then a else b).1 ↔ if p then e = a.1 else e = b.1 := by
  split <;> rfl

/-- Settles O34: by the code of each command. -/
theorem firstFailingCheckIsReported : Obligations.FirstFailingCheckIsReported := by
  intro s t snap hp hrun hidle
  rw [runCommand_run s snap hp] at hrun
  obtain rfl := Host.Outcome.next.inj hrun
  refine ⟨?_, fun hd => ?_, fun hd => ?_, fun hd => ?_, fun hd => ?_⟩
  · rintro ⟨e, hd⟩
    rw [runEffect_of_error hd, complete_statusErr]
  all_goals rw [runEffect_of_ok hd, commandEffect] at hidle ⊢
  · exact completeKeyLoad_statusErr snap s
  · rw [completeKeyClear_eq, complete_statusErr]
  · exact stepSeal_statusErr hidle
  · have hcode := completeOpen_statusErr snap s
    simp only [openResult, eq_fst_ite] at hcode
    exact hcode

/-! ### The interrupt output (R420) -/

theorem State.irq_eq_true_iff (s : State) : s.irq = true ↔ s.ctrlIrqEn = true ∧ s.evDone = true :=
  Bool.and_eq_true_iff

theorem State.irq_of_not_done {s : State} (h : s.evDone = false) : s.irq = false := by
  rw [State.irq, h, Bool.and_false]

theorem State.irq_of_not_enabled {s : State} (h : s.ctrlIrqEn = false) : s.irq = false := by
  rw [State.irq, h, Bool.false_and]

theorem irq_complete (e : Err) (out : Bytes) (s : State) (n : Fin 17) (c : BitVec 2) :
    (complete e out s n c).irq = s.ctrlIrqEn := by
  rw [State.irq, complete_ctrlIrqEn, complete_evDone, Bool.and_true]

/-- Settles O23: a completion sets DONE, and each of the four ways to lower irq clears DONE or IRQ_EN. -/
theorem irqFollowsDone : Obligations.IrqFollowsDone := by
  refine ⟨State.irq_eq_true_iff, fun s e out n c => irq_complete e out s n c, fun s w h => ?_, fun s w hp h => ?_,
    fun s w hp => ?_, fun s => ?_⟩
  · rw [busWrite_event]
    exact State.irq_of_not_done (by rw [writeEvent_evDone, h, Bool.not_true, Bool.and_false])
  · rw [busWrite_ctrl, inputWrite_idle _ s hp]
    exact State.irq_of_not_enabled ((writeCtrl_ctrlIrqEn w s).trans h)
  · rw [busWrite_cmd, writeCmd_idle hp]
    exact State.irq_of_not_done (accept_evDone w s)
  · exact State.irq_of_not_done rfl

end Sys2Proof.Machine
end

section
/-! SUPPORT. Reset (70_reset_and_hazards.md R450, R451): the step that takes it, what the reset state shows besides its
own fields, and that an idle block discards an answer of the RNG port. -/

namespace Sys2Proof.Machine

/-! ### The reset step and what the reset state shows (R450, R451) -/

theorem step_reset {s : State} {rest : List Input} (h : s.inputs = .reset :: rest) :
    step s = .next (State.resetWith s.cfg (s.resets + 1) rest) := by
  simp only [step, advance, h, applyInput, assertReset_eq]

theorem resetWith_busy (c : Config) (n : Nat) (l : List Input) : (State.resetWith c n l).busy = false :=
  (busy_eq_false _).2 (resetWith_phase c n l)

theorem resetWith_irq (c : Config) (n : Nat) (l : List Input) : (State.resetWith c n l).irq = false :=
  State.irq_of_not_done (resetWith_evDone c n l)

/-- No byte has been written, so IBUF shows the free contents of this reset. -/
theorem ibufByte_resetWith (c : Config) (n : Nat) (l : List Input) (j : Nat) :
    ibufByte (State.resetWith c n l) j = Config.ibufReset n j := by
  rw [ibufByte, resetWith_ibuf, resetWith_resets, Memory.read?_nil, Option.getD_none]

/-! ### An answer nobody waits for (R170, R450) -/

theorem answerRng_idle {s : State} (h : s.phase = .idle) (a : RngAnswer) : answerRng a s = s := by
  rw [answerRng, h]

theorem step_rngAnswer_idle {s : State} {a : RngAnswer} {rest : List Input} (h : s.inputs = .rngAnswer a :: rest)
    (hp : s.phase = .idle) : step s = .next { s with inputs := rest } := by
  simp only [step, advance, h, applyInput, answerRng_idle (s := { s with inputs := rest }) hp]

/-- Settles O46: the step gives the reset state, field by field, and that state is idle, so a late answer is lost. -/
theorem resetPutsEveryFieldToItsValue : Obligations.ResetPutsEveryFieldToItsValue := by
  intro s rest h
  let t := State.resetWith s.cfg (s.resets + 1) rest
  have hbusy : t.busy = false := resetWith_busy ..
  have henc : t.keys.encKey.toList = List.replicate 32 0 := Vector.toList_replicate
  have hmac : t.keys.macKey.toList = List.replicate 32 0 := Vector.toList_replicate
  have hkstage : t.kstage.toList = List.replicate 64 0 := Vector.toList_replicate
  have hirq : t.irq = false := resetWith_irq ..
  have hibuf : ∀ j, ibufByte t j = Config.ibufReset (s.resets + 1) j := ibufByte_resetWith _ _ _
  have hlate : ∀ a rest', rest = .rngAnswer a :: rest' → step t = .next { t with inputs := rest' } :=
    fun _ _ hr => step_rngAnswer_idle hr rfl
  exact ⟨t, step_reset h, rfl, rfl, rfl, hbusy, rfl, henc, hmac, rfl, rfl, rfl, rfl, rfl, rfl, rfl, rfl, rfl, rfl, rfl,
    hkstage, rfl, rfl, hirq, busRead_id t, busRead_param t, rfl, hibuf, hlate⟩

end Sys2Proof.Machine
end

section
/-! SUPPORT. What a step does (20_memory.md R102, 70_reset_and_hazards.md R470): one equation for each action at the
head of the list, what a running command's own step gives, a request to the RNG port or one completion
(40_commands.md R152, R154), and from both, everything a step can do to the block. -/

namespace Sys2Proof.Machine

/-! ### One equation per action (R102; 30_encoding.md R139) -/

/-- The state with other pending actions and another last answer to the host: the two fields that are the outside
world's. -/
def State.withOutside (s : State) (l : List Input) (r : Option BusReply) : State := { s with inputs := l, reply := r }

/-- What a bus read answers the host (R94). -/
def readReply (s : State) (addr : BitVec 16) : Option BusReply := some (.read (busRead s addr).1 (busRead s addr).2)

section
variable {s : State} {addr : BitVec 16} {rest : List Input}

theorem step_no_action (h : s.inputs = []) : step s = .next (cycleEffect s) := by
  rw [step, advance, h]
  exact clockCycle_eq s

theorem step_clock (h : s.inputs = .clock :: rest) : step s = .next (cycleEffect (s.withInputs rest)) := by
  rw [step, advance, h]
  exact clockCycle_eq _

theorem step_busRead (h : s.inputs = .busRead addr :: rest) :
    step s = .next (s.withOutside rest (readReply s addr)) := by
  rw [step, advance, h]
  rfl

theorem step_busWrite {w : Word} {strb : BitVec 4} (h : s.inputs = .busWrite addr w strb :: rest) :
    step s = .next ((busWrite s addr w strb).1.withOutside rest (some (.write (busWrite s addr w strb).2))) := by
  rw [step, advance, h]
  simp only [applyInput]
  rw [← State.withInputs, busWrite_withInputs]
  rfl

/-- A poll that sees its value is a read. -/
theorem step_poll_seen {mask val : Word} (h : s.inputs = .poll addr mask val :: rest)
    (hseen : (busRead s addr).1 &&& mask = val) : step s = .next (s.withOutside rest (readReply s addr)) := by
  rw [step, advance, h]
  exact if_pos hseen

/-- A poll that does not see its value stays, and the block has a cycle. -/
theorem step_poll_unseen {mask val : Word} (h : s.inputs = .poll addr mask val :: rest)
    (hunseen : (busRead s addr).1 &&& mask ≠ val) :
    step s = .next (cycleEffect (s.withOutside s.inputs (readReply s addr))) := by
  rw [step, advance, h]
  exact (if_neg hunseen).trans (clockCycle_eq _)

theorem step_rngAnswer {a : RngAnswer} (h : s.inputs = .rngAnswer a :: rest) :
    step s = .next (answerRng a (s.withInputs rest)) := by
  rw [step, advance, h]
  rfl

end

/-- Settles O7: the step of each action is a next state. -/
theorem everyStepAnswers : Obligations.EveryStepAnswers := by
  intro s
  cases h : s.inputs with
  | nil => exact ⟨_, step_no_action h⟩
  | cons i rest =>
    cases i with
    | busRead addr => exact ⟨_, step_busRead h⟩
    | busWrite addr w strb => exact ⟨_, step_busWrite h⟩
    | poll addr mask val =>
      by_cases hseen : (busRead s addr).1 &&& mask = val
      · exact ⟨_, step_poll_seen h hseen⟩
      · exact ⟨_, step_poll_unseen h hseen⟩
    | rngAnswer a => exact ⟨_, step_rngAnswer h⟩
    | reset => exact ⟨_, step_reset h⟩
    | clock => exact ⟨_, step_clock h⟩

/-! ### The own step of a running command (40_commands.md R152, R154) -/

/-- What holds of the code, the output and the RNG fields of a completion, whatever the command was (10_state.md R36,
60_exceptions.md R402, 00_scope.md R8). -/
structure ResultOk (cfg : Config) (snap : Snapshot) (e : Err) (out : Bytes) (n : Fin 17) (c : BitVec 2) : Prop where
  noOutput : e ≠ .ok → out = []
  cond : e ≠ .randomSourceExhausted → c = 0
  short : e = .randomSourceExhausted → n.val < 16
  count : n ≠ 0 → decode snap.cmd = .ok .sealData ∧ (e = .ok ∨ e = .randomSourceExhausted)
  fits : cfg.legal = true → out.length ≤ cfg.bufBytes

section
variable {cfg : Config} {snap : Snapshot}

/-- A completion with OK and no RNG fields. -/
theorem resultOk_ok {out : Bytes} (h : out.length ≤ cfg.bufBytes) : ResultOk cfg snap .ok out 0 0 where
  noOutput := fun hne => absurd rfl hne
  cond := fun _ => rfl
  short := fun he => Err.noConfusion he
  count := fun hne => absurd rfl hne
  fits := fun _ => h

/-- A completion with an error other than a short read. -/
theorem resultOk_error {e : Err} (h : e ≠ .randomSourceExhausted) : ResultOk cfg snap e [] 0 0 where
  noOutput := fun _ => rfl
  cond := fun _ => rfl
  short := fun he => absurd he h
  count := fun hne => absurd rfl hne
  fits := fun _ => Nat.zero_le _

/-- A short read of a SEAL (40_commands.md R170). -/
theorem resultOk_shortRead (hd : decode snap.cmd = .ok .sealData) {n : Fin 17} (h : n.val < 16) (c : BitVec 2) :
    ResultOk cfg snap .randomSourceExhausted [] n c where
  noOutput := fun _ => rfl
  cond := fun hne => absurd rfl hne
  short := fun _ => h
  count := fun _ => ⟨hd, .inr rfl⟩
  fits := fun _ => Nat.zero_le _

theorem Snapshot.input_length_le (snap : Snapshot) : snap.input.length ≤ snap.inLen.toNat :=
  List.length_take_le _ _

/-- The record of a SEAL past its length check fits OBUF (00_scope.md R8). -/
theorem resultOk_record (hd : decode snap.cmd = .ok .sealData) (hl : sealLengthOk cfg snap = true) (a : RngAnswer) :
    ResultOk cfg snap .ok (sealRecord snap.encKey snap.macKey a.iv snap.input) 16 0 where
  noOutput := fun hne => absurd rfl hne
  cond := fun _ => rfl
  short := fun he => Err.noConfusion he
  count := fun _ => ⟨hd, .inl rfl⟩
  fits := fun hlegal => by
    have hinput := snap.input_length_le
    have hfits := sealLengthOk_eq_true_iff.mp hl
    exact sealRecord_length_le hlegal _ _ a (by omega)

theorem recordCiphertext_length_le (r : Bytes) : (recordCiphertext r).length ≤ r.length := by
  simp only [recordCiphertext, List.length_take, List.length_drop]
  omega

/-- The plaintext of an OPEN past its length check fits OBUF. -/
theorem unpad_length_le_bufBytes (hl : openLengthOk cfg snap = true)
    (hmod : (recordCiphertext snap.input).length % 16 = 0) :
    (unpad (cbcD snap.encKey (recordIv snap.input) (recordCiphertext snap.input))).length ≤ cfg.bufBytes := by
  have hlen : snap.inLen.toNat ≤ cfg.bufBytes := of_decide_eq_true hl
  calc
    _ ≤ (cbcD snap.encKey (recordIv snap.input) (recordCiphertext snap.input)).length := unpad_length_le _
    _ = (recordCiphertext snap.input).length := cbcD_length _ _ _ hmod
    _ ≤ snap.input.length := recordCiphertext_length_le _
    _ ≤ snap.inLen.toNat := snap.input_length_le
    _ ≤ cfg.bufBytes := hlen

end

/-- What the own step of a running command can give: the RNG request of a SEAL past its checks that has no answer, or
one completion, of a state that differs at most in the key store, KSTAGE and KEY_LEN. -/
inductive RunResult (snap : Snapshot) (s : State) : State → Prop where
  | asks : snap.asksRng s.cfg → s.rng.answer = none → RunResult snap s (requestRng snap s)
  | completes (k : KeyStore) (stage : Vector Byte 64) (len : BitVec 16) {e : Err} {out : Bytes} {n : Fin 17}
      {c : BitVec 2} : ResultOk s.cfg snap e out n c →
      RunResult snap s (complete e out { s with keys := k, kstage := stage, keyLen := len } n c)

/-- A completion that changes none of the key store, KSTAGE and KEY_LEN. -/
theorem RunResult.completes_kept {snap : Snapshot} {s : State} {e : Err} {out : Bytes} {n : Fin 17} {c : BitVec 2}
    (h : ResultOk s.cfg snap e out n c) : RunResult snap s (complete e out s n c) :=
  .completes s.keys s.kstage s.keyLen h

theorem stepSeal_runResult {snap : Snapshot} (s : State) (hd : decode snap.cmd = .ok .sealData) :
    RunResult snap s (stepSeal snap s) := by
  rcases stepSeal_cases snap s with ⟨-, h⟩ | ⟨-, -, h⟩ | ⟨hv, hl, ha, h⟩ | ⟨a, -, -, -, hc, h⟩ |
    ⟨a, -, hl, -, -, h⟩ <;> rw [h]
  · exact .completes_kept (resultOk_error (by simp))
  · exact .completes_kept (resultOk_error (by simp))
  · exact .asks ⟨hd, hv, hl⟩ ha
  · exact .completes_kept (resultOk_shortRead hd hc _)
  · exact .completes_kept (resultOk_record hd hl a)

theorem completeOpen_runResult (snap : Snapshot) (s : State) : RunResult snap s (completeOpen snap s) := by
  rcases completeOpen_cases snap s with ⟨e, -, he, h⟩ | ⟨-, hl, -, -, -, hmod, -, h⟩ <;> rw [h]
  · exact .completes_kept (resultOk_error he)
  · exact .completes_kept (resultOk_ok (unpad_length_le_bufBytes hl hmod))

theorem completeKeyLoad_runResult (snap : Snapshot) (s : State) : RunResult snap s (completeKeyLoad snap s) := by
  rcases completeKeyLoad_cases snap s with ⟨-, h⟩ | ⟨-, h⟩ <;> rw [h]
  · exact .completes _ _ _ (resultOk_ok (Nat.zero_le _))
  · exact .completes _ _ _ (resultOk_error (by simp))

theorem runEffect_runResult (snap : Snapshot) (s : State) : RunResult snap s (runEffect snap s) := by
  cases hd : decode snap.cmd with
  | error e =>
    rw [runEffect_of_error hd]
    exact .completes_kept (resultOk_error (by simp))
  | ok i =>
    rw [runEffect_of_ok hd]
    cases i with
    | keyLoad => exact completeKeyLoad_runResult snap s
    | keyClear => exact .completes _ _ _ (resultOk_ok (Nat.zero_le _))
    | sealData => exact stepSeal_runResult s hd
    | openRecord => exact completeOpen_runResult snap s

theorem RunResult.commandFrame {snap : Snapshot} {s t : State} (h : RunResult snap s t) : s.commandFrame t := by
  cases h with
  | asks hask ha => exact commandFrame_requestRng snap s
  | completes k stage len hr => exact commandFrame_complete_of_keys ..

/-- Settles O39: the last cycle is the command's own step, a request or a completion. -/
theorem runningCommandAsksOrCompletes : Obligations.RunningCommandAsksOrCompletes := by
  intro s snap hp hc hi
  have hres := runEffect_runResult snap s
  refine ⟨_, step_run_last_cycle hp hc hi, hres.commandFrame, ?_⟩
  generalize runEffect snap s = t at hres ⊢
  cases hres with
  | asks hask ha => exact .inl ⟨hask, ha, rfl⟩
  | completes k stage len hr =>
    refine .inr ⟨rfl, rfl, rfl, hr.noOutput, hr.cond, fun hd => ?_, rfl, rfl⟩
    by_contra hn
    exact hd (hr.count hn).1

/-! ### Everything a step can do to the block -/

/-- What a clock cycle can do: nothing to an idle block and one that waits, one cycle less for a running command, and
in its last cycle the command's own step (R470). -/
inductive CycleResult (s : State) : State → Prop where
  | stays : CycleResult s s
  | counts (snap : Snapshot) : s.phase = .run snap → CycleResult s { s with cyclesLeft := s.cyclesLeft - 1 }
  | runs (snap : Snapshot) {t : State} : s.phase = .run snap → RunResult snap s t → CycleResult s t

theorem cycleEffect_cycleResult (s : State) : CycleResult s (cycleEffect s) := by
  unfold cycleEffect
  cases hp : s.phase with
  | idle => exact .stays
  | rngWait snap => exact .stays
  | run snap =>
    dsimp only
    split
    · rw [← hp]
      exact .counts snap hp
    · exact .runs snap hp (runEffect_runResult snap s)

/-- A clock cycle does not look at the outside world's fields. -/
theorem CycleResult.of_withOutside {s t : State} {l : List Input} {r : Option BusReply}
    (h : CycleResult (s.withOutside l r) t) : ∃ u, CycleResult s u ∧ t = u.withOutside l r := by
  cases h with
  | stays => exact ⟨s, .stays, rfl⟩
  | counts snap hp => exact ⟨_, .counts snap hp, rfl⟩
  | runs snap hp hres =>
    cases hres with
    | asks hask ha => exact ⟨_, .runs snap hp (.asks hask ha), rfl⟩
    | completes k stage len hr => exact ⟨_, .runs snap hp (.completes k stage len hr), rfl⟩

/-- What a step can do to the block: what a clock cycle can, a bus write, the RNG answer that a SEAL waits for, a
reset, or nothing. -/
inductive StepEffect (s : State) : State → Prop where
  | none : StepEffect s s
  | cycle {t : State} : CycleResult s t → StepEffect s t
  | wrote {addr : BitVec 16} {w : Word} {strb : BitVec 4} {rest : List Input} :
      s.inputs = .busWrite addr w strb :: rest → StepEffect s (busWrite s addr w strb).1
  | answered (snap : Snapshot) (a : RngAnswer) : s.phase = .rngWait snap →
      StepEffect s { s with phase := .run snap, rng := ⟨false, some a⟩ }
  | reset {rest : List Input} : s.inputs = .reset :: rest → StepEffect s (assertReset s)

theorem cycleEffect_stepEffect (s : State) (l : List Input) (r : Option BusReply) :
    ∃ u l' r', StepEffect s u ∧ cycleEffect (s.withOutside l r) = u.withOutside l' r' := by
  obtain ⟨u, hu, h⟩ := (cycleEffect_cycleResult (s.withOutside l r)).of_withOutside
  exact ⟨u, l, r, .cycle hu, h⟩

/-- A step is an effect on the block, with other pending actions and another answer to the host. -/
theorem step_stepEffect {s t : State} (h : step s = .next t) : ∃ u l r, StepEffect s u ∧ t = u.withOutside l r := by
  rcases step_cases h with ⟨-, rfl⟩ | ⟨rest, -, rfl⟩ | ⟨addr, rest, -, rfl⟩ | ⟨addr, w, strb, rest, hi, rfl⟩ |
    ⟨addr, mask, val, rest, -, rfl | rfl⟩ | ⟨a, rest, -, rfl⟩ | ⟨rest, hi, rfl⟩
  · exact cycleEffect_stepEffect s s.inputs s.reply
  · exact cycleEffect_stepEffect s rest s.reply
  · exact ⟨s, _, _, .none, rfl⟩
  · rw [← State.withInputs, busWrite_withInputs]
    exact ⟨_, rest, _, .wrote hi, rfl⟩
  · exact ⟨s, _, _, .none, rfl⟩
  · exact cycleEffect_stepEffect s s.inputs (readReply s addr)
  · rcases answerRng_cases a (s.withInputs rest) with ⟨snap, hp, -, h⟩ | ⟨h, -⟩
    · exact ⟨_, rest, s.reply, .answered snap a hp, h⟩
    · exact ⟨s, rest, s.reply, .none, h⟩
  · exact ⟨_, rest, Option.none, .reset hi, rfl⟩

end Sys2Proof.Machine
end

section
/-! SUPPORT. What steps leave alone: a command's results while it runs (20_memory.md R100), the phase (10_state.md R47),
the block's inputs (70_reset_and_hazards.md R472), and every field that a bus write does not name (20_memory.md R96). -/

namespace Sys2Proof.Machine

/-! ### While a command runs (R100) -/

/-- A step from a busy state to a busy state changes no more than the phase, the RNG port, the count of cycles and the
event flags, and does not set DONE. -/
theorem StepEffect.eq_of_busy {s u : State} (h : StepEffect s u) (hs : s.phase ≠ .idle) (hu : u.phase ≠ .idle) :
    ∃ p r n d e f, (d = true → s.evDone = true) ∧ u = { s with
      phase := p, rng := r, cyclesLeft := n, evDone := d, evCmdDropped := e, evWrIgnored := f } := by
  cases h with
  | none => exact ⟨_, _, _, _, _, _, id, rfl⟩
  | cycle hc =>
    cases hc with
    | stays => exact ⟨_, _, _, _, _, _, id, rfl⟩
    | counts snap hp => exact ⟨_, _, _, _, _, _, id, rfl⟩
    | runs snap hp hres =>
      cases hres with
      | asks hask ha => exact ⟨_, _, _, _, _, _, id, rfl⟩
      | completes k stage len hr => exact absurd rfl hu
  | @wrote addr w strb rest hi =>
    have heff := busWrite_effect s addr w strb
    generalize (busWrite s addr w strb).1 = u at heff
    cases heff with
    | none => exact ⟨_, _, _, _, _, _, id, rfl⟩
    | ignored hp => exact ⟨_, _, _, _, _, _, id, rfl⟩
    | dropped hp ha => exact ⟨_, _, _, _, _, _, id, rfl⟩
    | event ha => exact ⟨_, _, _, _, _, _, Bool.and_elim_left, rfl⟩
    | accepted hp | ctrl hp | keyLen hp | inLen hp | kstage j hp | ibuf j hp => exact absurd hp hs
  | answered snap a hp => exact ⟨_, _, _, _, _, _, id, rfl⟩
  | reset hi => exact absurd rfl hu

/-- Settles O40: a step from busy to busy keeps every field a completion writes but those of the phase. -/
theorem noEffectBeforeCompletion : Obligations.NoEffectBeforeCompletion := by
  intro s t hstep hs ht
  obtain ⟨u, l, r, heff, rfl⟩ := step_stepEffect hstep
  obtain ⟨_, _, _, d, _, _, hd, rfl⟩ := heff.eq_of_busy hs ht
  exact ⟨rfl, rfl, rfl, rfl, rfl, rfl, rfl, rfl, rfl, rfl, rfl, rfl, rfl, rfl, hd⟩

/-! ### The phase (R47) -/

/-- A bus write changes the phase only by being a CMD write with all strobes to an idle block. -/
theorem busWrite_phase {s : State} {addr : BitVec 16} {w : Word} {strb : BitVec 4}
    (h : (busWrite s addr w strb).1.phase ≠ s.phase) : s.phase = .idle ∧ addr = 0x0008 ∧ strb = 0b1111 := by
  by_cases hstrb : strb = 0b1111
  · have heff := busWrite_effect s addr w strb
    generalize (busWrite s addr w strb).1 = u at heff h
    cases heff with
    | accepted hp ha => exact ⟨hp, ha, hstrb⟩
    | none | ignored | dropped | event | ctrl | keyLen | inLen | kstage | ibuf => exact absurd rfl h
  · rw [busWrite_bad s addr w strb (fun hok => hstrb hok.2)] at h
    exact absurd rfl h

theorem StepEffect.cmd_write_of_leaves_idle {s u : State} (h : StepEffect s u) (hs : s.phase = .idle)
    (hu : u.phase ≠ .idle) : ∃ w rest, s.inputs = .busWrite 0x0008 w 0b1111 :: rest := by
  cases h with
  | none => exact absurd hs hu
  | cycle hc =>
    cases hc with
    | stays => exact absurd hs hu
    | counts snap hp | runs snap hp => simp [hs] at hp
  | @wrote addr w strb rest hi =>
    obtain ⟨-, rfl, rfl⟩ := busWrite_phase (hs ▸ hu)
    exact ⟨w, rest, hi⟩
  | answered snap a hp => simp [hs] at hp
  | reset hi => exact absurd rfl hu

theorem StepEffect.reset_or_done_of_enters_idle {s u : State} (h : StepEffect s u) (hs : s.phase ≠ .idle)
    (hu : u.phase = .idle) :
    (∃ rest, s.inputs = .reset :: rest) ∨ ((∃ snap, s.phase = .run snap) ∧ u.evDone = true) := by
  cases h with
  | none => exact absurd hu hs
  | cycle hc =>
    cases hc with
    | stays | counts => exact absurd hu hs
    | runs snap hp hres =>
      cases hres with
      | asks hask ha => cases hu
      | completes k stage len hr => exact .inr ⟨⟨snap, hp⟩, rfl⟩
  | wrote hi =>
    obtain ⟨hp, -, -⟩ := busWrite_phase (hu ▸ hs.symm)
    exact absurd hp hs
  | answered snap a hp => cases hu
  | reset hi => exact .inl ⟨_, hi⟩

/-- Settles O41, by what a step can do to the block. -/
theorem phaseChangesOnlyByCommands : Obligations.PhaseChangesOnlyByCommands := by
  intro s t hstep
  obtain ⟨u, l, r, heff, rfl⟩ := step_stepEffect hstep
  exact ⟨heff.cmd_write_of_leaves_idle, heff.reset_or_done_of_enters_idle⟩

/-! ### The block's inputs (R472) -/

theorem State.commandFrame_refl (s : State) : s.commandFrame s :=
  ⟨rfl, rfl, rfl, rfl, rfl, rfl, rfl, rfl, fun _ => rfl, rfl, rfl, rfl⟩

theorem CycleResult.commandFrame {s t : State} (h : CycleResult s t) : s.commandFrame t := by
  cases h with
  | stays => exact s.commandFrame_refl
  | counts snap hp => exact s.commandFrame_refl
  | runs snap hp hres => exact hres.commandFrame

/-- Settles O42: what is left to a step without a bus write and a reset keeps the frame of the commands. -/
theorem blockNeverChangesItsInputs : Obligations.BlockNeverChangesItsInputs := by
  intro s t hstep hwrite hreset
  obtain ⟨u, l, r, heff, rfl⟩ := step_stepEffect hstep
  have hframe : s.commandFrame u := by
    cases heff with
    | none => exact s.commandFrame_refl
    | cycle hc => exact hc.commandFrame
    | wrote hi => exact absurd hi (hwrite _ _ _ _)
    | answered snap a hp => exact s.commandFrame_refl
    | reset hi => exact absurd hi (hreset _)
  obtain ⟨hstrict, hirq, -, -, -, hlen, hibuf, -, hbyte, -⟩ := hframe
  exact ⟨hstrict, hirq, hlen, hibuf, hbyte⟩

/-! ### The target of a bus access (R96) -/

section
variable {s : State} {addr : BitVec 16} {w : Word} {u : State}

theorem BusEffect.kept (h : BusEffect s addr w u) : u.keys = s.keys ∧ u.rng = s.rng ∧ u.dp = s.dp ∧ u.cfg = s.cfg ∧
    u.inputs = s.inputs ∧ u.reply = s.reply := by
  cases h <;> exact ⟨rfl, rfl, rfl, rfl, rfl, rfl⟩

/-- The sequencer, the results and the status change by a CMD write while idle only, DONE also by an EVENT write. -/
theorem BusEffect.results_kept (h : BusEffect s addr w u) (hn : ¬ (addr = 0x0008 ∧ s.phase = .idle)) :
    u.phase = s.phase ∧ u.statusErr = s.statusErr ∧ u.statusRngCond = s.statusRngCond ∧
      u.statusRngCount = s.statusRngCount ∧ u.statusLastOp = s.statusLastOp ∧ u.outLen = s.outLen ∧
      u.obuf = s.obuf ∧ (addr ≠ 0x0010 → u.evDone = s.evDone) := by
  cases h with
  | accepted hp ha => exact absurd ⟨ha, hp⟩ hn
  | event ha => exact ⟨rfl, rfl, rfl, rfl, rfl, rfl, rfl, fun hne => absurd ha hne⟩
  | none | ignored | dropped | ctrl | keyLen | inLen | kstage | ibuf =>
    exact ⟨rfl, rfl, rfl, rfl, rfl, rfl, rfl, fun _ => rfl⟩

theorem BusEffect.ctrl_kept (h : BusEffect s addr w u) (hn : ¬ (addr = 0x0004 ∧ s.phase = .idle)) :
    u.ctrlStrict = s.ctrlStrict ∧ u.ctrlIrqEn = s.ctrlIrqEn := by
  cases h with
  | ctrl hp ha => exact absurd ⟨ha, hp⟩ hn
  | none | ignored | dropped | accepted | event | keyLen | inLen | kstage | ibuf => exact ⟨rfl, rfl⟩

theorem BusEffect.keyLen_kept (h : BusEffect s addr w u) (hn : ¬ (addr = 0x0014 ∧ s.phase = .idle)) :
    u.keyLen = s.keyLen := by
  cases h with
  | keyLen hp ha => exact absurd ⟨ha, hp⟩ hn
  | none | ignored | dropped | accepted | event | ctrl | inLen | kstage | ibuf => rfl

theorem BusEffect.inLen_kept (h : BusEffect s addr w u) (hn : ¬ (addr = 0x0018 ∧ s.phase = .idle)) :
    u.inLen = s.inLen := by
  cases h with
  | inLen hp ha => exact absurd ⟨ha, hp⟩ hn
  | none | ignored | dropped | accepted | event | ctrl | keyLen | kstage | ibuf => rfl

theorem BusEffect.kstage_kept (h : BusEffect s addr w u)
    (hn : ¬ (0x40 ≤ addr.toNat ∧ addr.toNat ≤ 0x7F ∧ s.phase = .idle)) : u.kstage = s.kstage := by
  cases h with
  | kstage j hp ha hal hj => exact absurd ⟨by omega, by omega, hp⟩ hn
  | none | ignored | dropped | accepted | event | ctrl | keyLen | inLen | ibuf => rfl

theorem BusEffect.ibuf_kept (h : BusEffect s addr w u)
    (hn : ¬ (0x8000 ≤ addr.toNat ∧ addr.toNat ≤ 0xBFFF ∧ s.phase = .idle)) :
    u.ibuf = s.ibuf ∧ ∀ j, ibufByte u j = ibufByte s j := by
  cases h with
  | ibuf j hp ha hal hj => exact absurd ⟨by omega, by omega, hp⟩ hn
  | none | ignored | dropped | accepted | event | ctrl | keyLen | inLen | kstage => exact ⟨rfl, fun _ => rfl⟩

/-- Only an EVENT write clears WR_IGNORED, and only a busy block sets it (R98). -/
theorem BusEffect.evWrIgnored (h : BusEffect s addr w u) (hn : addr ≠ 0x0010) :
    (s.phase = .idle → u.evWrIgnored = s.evWrIgnored) ∧ (s.evWrIgnored = true → u.evWrIgnored = true) := by
  cases h with
  | event ha => exact absurd ha hn
  | ignored hp => exact ⟨fun hidle => absurd hidle hp, fun _ => rfl⟩
  | none | dropped | accepted | ctrl | keyLen | inLen | kstage | ibuf => exact ⟨fun _ => rfl, id⟩

/-- A write that is no CMD write to a busy block and no EVENT write leaves CMD_DROPPED. -/
theorem BusEffect.evCmdDropped_kept (h : BusEffect s addr w u) (hn : addr ≠ 0x0010)
    (hcmd : ¬ (addr = 0x0008 ∧ s.phase ≠ .idle)) : u.evCmdDropped = s.evCmdDropped := by
  cases h with
  | event ha => exact absurd ha hn
  | dropped hp ha => exact absurd ⟨ha, hp⟩ hcmd
  | none | ignored | accepted | ctrl | keyLen | inLen | kstage | ibuf => rfl

end

/-- Away from EVENT, a write sets CMD_DROPPED exactly by being a CMD write, with all strobes, to a busy block
(40_commands.md R153). -/
theorem busWrite_evCmdDropped (s : State) {addr : BitVec 16} (w : Word) (strb : BitVec 4) (hn : addr ≠ 0x0010) :
    (busWrite s addr w strb).1.evCmdDropped =
      (s.evCmdDropped || decide (addr = 0x0008 ∧ s.phase ≠ .idle ∧ strb = 0b1111)) := by
  by_cases hdrop : addr = 0x0008 ∧ s.phase ≠ .idle ∧ strb = 0b1111
  · obtain ⟨rfl, hp, rfl⟩ := hdrop
    rw [busWrite_cmd, writeCmd_busy hp]
    simp [hp]
  rw [decide_eq_false hdrop, Bool.or_false]
  by_cases hstrb : strb = 0b1111
  · exact (busWrite_effect s addr w strb).evCmdDropped_kept hn (fun ⟨ha, hp⟩ => hdrop ⟨ha, hp, hstrb⟩)
  · rw [busWrite_bad s addr w strb (fun hok => hstrb hok.2)]

/-- Settles O13, by the step of each access and by the effects that a bus write can have. -/
theorem busAccessesTouchOnlyTheirTarget : Obligations.BusAccessesTouchOnlyTheirTarget := by
  refine ⟨fun s addr rest h => step_busRead h, fun s addr w strb rest h => step_busWrite h,
    fun s addr mask val rest h => ⟨step_poll_seen h, fun hunseen => ?_⟩, ?_⟩
  · refine ⟨_, step_no_action rfl, (step_poll_unseen h hunseen).trans (congrArg _ ?_)⟩
    exact cycleEffect_withInputs (s.withOutside [] (readReply s addr)) s.inputs
  · intro s addr w strb t r h
    have heff := busWrite_effect s addr w strb
    have hdropped := busWrite_evCmdDropped (addr := addr) s w strb
    rw [h] at heff hdropped
    obtain ⟨hkeys, hrng, hdp, hcfg, hinputs, hreply⟩ := heff.kept
    exact ⟨hkeys, hrng, hdp, hcfg, hinputs, hreply, heff.results_kept, heff.ctrl_kept, heff.keyLen_kept,
      heff.inLen_kept, heff.kstage_kept, heff.ibuf_kept, fun hn => ⟨hdropped hn, heff.evWrIgnored hn⟩⟩

end Sys2Proof.Machine
end

section
/-! SUPPORT. The invariant of the block (`State.Inv`): it holds at reset, and every step keeps it. -/

namespace Sys2Proof.Machine

/-! ### The phase part by the phase (10_state.md R47 to R50) -/

section
variable {s : State} {snap : Snapshot}

theorem State.phaseOk_idle_iff (h : s.phase = .idle) :
    s.phaseOk ↔ s.rng = RngPort.quiet ∧ s.dp = Datapath.zero := by
  rw [State.phaseOk, h]

theorem State.phaseOk_run_iff (h : s.phase = .run snap) :
    s.phaseOk ↔ s.runningOk snap ∧ s.rng.pending = false ∧ (s.rng.answer ≠ none → snap.asksRng s.cfg) := by
  rw [State.phaseOk, h]

theorem State.phaseOk_rngWait_iff (h : s.phase = .rngWait snap) :
    s.phaseOk ↔ s.runningOk snap ∧ s.rng = ⟨true, none⟩ ∧ snap.asksRng s.cfg := by
  rw [State.phaseOk, h]

end

/-! ### Reset (70_reset_and_hazards.md R450) -/

/-- A block after a reset meets the invariant, whatever its legal parameters. -/
theorem inv_resetWith {c : Config} (h : c.legal = true) (n : Nat) (l : List Input) : (State.resetWith c n l).Inv where
  cfg := h
  memory := ⟨rfl, rfl⟩
  output := ⟨rfl, Nat.zero_le _, fun _ => rfl⟩
  keys := fun _ => rfl
  rngFields := ⟨fun _ => rfl, fun he => Err.noConfusion he, fun hn => absurd rfl hn⟩
  phase := ⟨rfl, rfl⟩

/-- Settles O47: the initial parameters are legal. -/
theorem resetMeetsTheInvariant : Obligations.ResetMeetsTheInvariant := inv_resetWith (by decide) 0 []

/-! ### The outside world and the clock -/

/-- The invariant says nothing of the outside world's fields. -/
theorem State.Inv.withOutside {s : State} (h : s.Inv) (l : List Input) (r : Option BusReply) :
    (s.withOutside l r).Inv :=
  ⟨h.cfg, h.memory, h.output, h.keys, h.rngFields, h.phase⟩

theorem State.Inv.withCyclesLeft {s : State} (h : s.Inv) (n : Nat) : { s with cyclesLeft := n }.Inv :=
  ⟨h.cfg, h.memory, h.output, h.keys, h.rngFields, h.phase⟩

/-! ### Commands (40_commands.md R152, R170) -/

theorem State.Inv.runningOk_of_run {s : State} {snap : Snapshot} (h : s.Inv) (hp : s.phase = .run snap) :
    s.runningOk snap :=
  ((State.phaseOk_run_iff hp).mp h.phase).1

/-- A request leaves the command waiting, with nothing else changed. -/
theorem inv_requestRng {s : State} {snap : Snapshot} (h : s.Inv) (hp : s.phase = .run snap)
    (hask : snap.asksRng s.cfg) : (requestRng snap s).Inv :=
  ⟨h.cfg, h.memory, h.output, h.keys, h.rngFields, h.runningOk_of_run hp, rfl, hask⟩

/-- A completion of a running command meets the invariant, whatever key store, KSTAGE and KEY_LEN it leaves, if the
key store has no key without key_valid. -/
theorem inv_complete {s : State} {snap : Snapshot} (h : s.Inv) (hp : s.phase = .run snap) {k : KeyStore}
    (stage : Vector Byte 64) (len : BitVec 16) {e : Err} {out : Bytes} {n : Fin 17} {c : BitVec 2}
    (hr : ResultOk s.cfg snap e out n c) (hk : k.valid = false → k = KeyStore.empty) :
    (complete e out { s with keys := k, kstage := stage, keyLen := len } n c).Inv := by
  have hfits : out.length ≤ s.cfg.bufBytes := hr.fits h.cfg
  have hmax : s.cfg.bufBytes < 2 ^ 16 := bufBytes_lt_of_legal h.cfg
  have hlen : (BitVec.ofNat 16 out.length).toNat = out.length := by
    rw [BitVec.toNat_ofNat, Nat.mod_eq_of_lt (by omega)]
  refine ⟨h.cfg, h.memory, ⟨hlen.symm, hlen.le.trans hfits, fun he => ?_⟩, hk, ⟨hr.cond, hr.short, fun hn => ?_⟩,
    rfl, rfl⟩
  · rw [complete_outLen, hr.noOutput he]
    rfl
  · obtain ⟨hseal, he⟩ := hr.count hn
    obtain ⟨-, hop, -⟩ := h.runningOk_of_run hp
    refine ⟨hop.trans ?_, he⟩
    rw [decode_cmd_eq_ok_iff.mp hseal]
    rfl

/-- A clock cycle keeps the invariant, if the key store it leaves has no key without key_valid. -/
theorem CycleResult.inv {s t : State} (h : CycleResult s t) (hinv : s.Inv) (hk : t.keysOk) : t.Inv := by
  cases h with
  | stays => exact hinv
  | counts snap hp => exact hinv.withCyclesLeft _
  | runs snap hp hres =>
    cases hres with
    | asks hask ha => exact inv_requestRng hinv hp hask
    | completes k stage len hr => exact inv_complete hinv hp stage len hr hk

/-- The answer that a SEAL waits for lets it go on. -/
theorem inv_answered {s : State} {snap : Snapshot} (h : s.Inv) (hp : s.phase = .rngWait snap) (a : RngAnswer) :
    { s with phase := .run snap, rng := ⟨false, some a⟩ }.Inv := by
  obtain ⟨hrun, -, hask⟩ := (State.phaseOk_rngWait_iff hp).mp h.phase
  exact ⟨h.cfg, h.memory, h.output, h.keys, h.rngFields, hrun, rfl, fun _ => hask⟩

/-! ### Bus writes (20_memory.md R96, 40_commands.md R151) -/

/-- An accepted command has its snapshot equal to the live values. -/
theorem inv_accept {s : State} (h : s.Inv) (hp : s.phase = .idle) (w : Word) : (accept w s).Inv := by
  obtain ⟨hrng, -⟩ := (State.phaseOk_idle_iff hp).mp h.phase
  refine ⟨h.cfg, h.memory, ⟨rfl, Nat.zero_le _, fun _ => rfl⟩, h.keys,
    ⟨fun _ => rfl, fun he => Err.noConfusion he, fun hn => absurd rfl hn⟩,
    ⟨rfl, rfl, rfl, rfl, rfl, rfl, rfl, rfl⟩, ?_⟩
  rw [accept_rng, hrng]
  exact ⟨rfl, fun hne => absurd rfl hne⟩

theorem runningOk_writeEvent {s : State} {snap : Snapshot} (h : s.runningOk snap) (w : Word) :
    (writeEvent w s).runningOk snap := by
  obtain ⟨hsnap, hop, herr, hcond, hcount, hdone, hout⟩ := h
  exact ⟨hsnap, hop, herr, hcond, hcount, by rw [writeEvent_evDone, hdone, Bool.false_and], hout⟩

theorem inv_writeEvent {s : State} (h : s.Inv) (w : Word) : (writeEvent w s).Inv := by
  refine ⟨h.cfg, h.memory, h.output, h.keys, h.rngFields, ?_⟩
  cases hp : s.phase with
  | idle =>
    exact (State.phaseOk_idle_iff (s := writeEvent w s) hp).mpr ((State.phaseOk_idle_iff hp).mp h.phase)
  | run snap =>
    obtain ⟨hrun, hrng⟩ := (State.phaseOk_run_iff hp).mp h.phase
    exact (State.phaseOk_run_iff (s := writeEvent w s) hp).mpr ⟨runningOk_writeEvent hrun w, hrng⟩
  | rngWait snap =>
    obtain ⟨hrun, hrng⟩ := (State.phaseOk_rngWait_iff hp).mp h.phase
    exact (State.phaseOk_rngWait_iff (s := writeEvent w s) hp).mpr ⟨runningOk_writeEvent hrun w, hrng⟩

/-- A write of an idle block's inputs, IBUF within its window, keeps the invariant. -/
theorem inv_inputs_of_idle {s : State} (h : s.Inv) (hp : s.phase = .idle) (strict irqEn : Bool) (klen ilen : BitVec 16)
    (stage : Vector Byte 64) {m : Memory} (hm : m.wf = true ∧ m.within s.cfg.bufBytes = true) :
    { s with ctrlStrict := strict, ctrlIrqEn := irqEn, keyLen := klen, inLen := ilen, kstage := stage, ibuf := m
        }.Inv := by
  refine ⟨h.cfg, hm, h.output, h.keys, h.rngFields, (State.phaseOk_idle_iff ?_).mpr ?_⟩
  · exact hp
  · exact (State.phaseOk_idle_iff hp).mp h.phase

/-- A whole word of IBUF lies in its window when its first byte does, for BUF_BYTES is a multiple of 16. -/
theorem memoryOk_writeIbufWord {s : State} (h : s.Inv) {j : Nat} (hal : j % 4 = 0) (hj : j < s.cfg.bufBytes)
    (w : Word) : (writeIbufWord j w s).memoryOk := by
  have hlegal := h.cfg
  simp only [Config.legal, Bool.and_eq_true, beq_iff_eq] at hlegal
  obtain ⟨-, hmod⟩ := hlegal
  obtain ⟨hwf, hwithin⟩ := h.memory
  exact ⟨wf_writeIbufWord j w s hwf, within_writeIbufWord j s.cfg.bufBytes w s (by omega) hwithin⟩

theorem BusEffect.inv {s u : State} {addr : BitVec 16} {w : Word} (h : BusEffect s addr w u) (hinv : s.Inv) :
    u.Inv := by
  cases h with
  | none => exact hinv
  | ignored | dropped => exact ⟨hinv.cfg, hinv.memory, hinv.output, hinv.keys, hinv.rngFields, hinv.phase⟩
  | accepted hp => exact inv_accept hinv hp w
  | event => exact inv_writeEvent hinv w
  | ctrl hp | keyLen hp | inLen hp | kstage j hp => exact inv_inputs_of_idle hinv hp _ _ _ _ _ hinv.memory
  | ibuf j hp ha hal hmax hj =>
    exact inv_inputs_of_idle hinv hp _ _ _ _ _ (memoryOk_writeIbufWord hinv hal hj w)

/-! ### Every step -/

/-- Settles O48, by what a step can do to the block; that no key is left without key_valid is the invariant of the key
store. -/
theorem everyStepKeepsTheInvariant : Obligations.EveryStepKeepsTheInvariant := by
  intro s t hinv hstep
  obtain ⟨-, -, hkeysOk⟩ := onlyKeyCommandsChangeTheKeyStore.1 s t hstep
  have hkeys := hkeysOk hinv.keys
  obtain ⟨u, l, r, heff, rfl⟩ := step_stepEffect hstep
  refine State.Inv.withOutside ?_ l r
  cases heff with
  | none => exact hinv
  | cycle hc => exact hc.inv hinv hkeys
  | wrote hi => exact (busWrite_effect s _ _ _).inv hinv
  | answered snap a hp => exact inv_answered hinv hp a
  | reset hi => exact inv_resetWith hinv.cfg _ _

end Sys2Proof.Machine
end

section
/-! SUPPORT. The cryptographic units in the other direction: encryption undoes decryption, since a block has finitely
many values (41_aes256.md R202, R209 to R213), what CBC does with its IV (43_cbc_padding_compare.md R301, R302), the
comparator and the masked padding check (R304 to R306), and lengths of the hash unit (42_sha512_hmac.md R254 to R262). -/

namespace Sys2Proof.Machine

/-! ### Functions on the finitely many blocks (41_aes256.md R200) -/

theorem finite_col : Finite Col :=
  Finite.of_injective (fun x : Col => (x.r0, x.r1, x.r2, x.r3)) fun x y h => by
    cases x; cases y; simpa using h

theorem finite_block : Finite Block :=
  have := finite_col
  Finite.of_injective (fun b : Block => (b.c0, b.c1, b.c2, b.c3)) fun x y h => by
    cases x; cases y; simpa using h

/-- On blocks, what undoes a function is undone by it. -/
theorem block_rightInverse_of_leftInverse {f g : Block → Block} (h : ∀ b, g (f b) = b) (b : Block) : f (g b) = b := by
  have := finite_block
  obtain ⟨a, rfl⟩ := Finite.surjective_of_injective (Function.LeftInverse.injective h) b
  rw [h]

/-! ### The products and the column mix (R202, R209, R210) -/

/-- The bits of a constant select the powers whose sum is the product by it. -/
theorem constantProducts_eq_gfMul (a : Byte) : xtime a = gfMul a 0x02 ∧ mul03 a = gfMul a 0x03 ∧
    mul09 a = gfMul a 0x09 ∧ mul0b a = gfMul a 0x0b ∧ mul0d a = gfMul a 0x0d ∧ mul0e a = gfMul a 0x0e := by
  refine ⟨by simp [gfMul], ?_, ?_, ?_, ?_, ?_⟩
  all_goals
    simp [gfMul, mul03, mul09, mul0b, mul0d, mul0e]
    ac_rfl

/-- Settles O50, by the constant products and by the two compositions on blocks. -/
theorem mixColumnsInverse : Obligations.MixColumnsInverse :=
  ⟨constantProducts_eq_gfMul,
    fun b => ⟨invMixColumns_mixColumns b, block_rightInverse_of_leftInverse invMixColumns_mixColumns b⟩⟩

/-! ### The cipher (R212, R213) -/

theorem cipherBlock_invCipherBlock (w : List Col) (b : Block) : cipherBlock w (invCipherBlock w b) = b :=
  block_rightInverse_of_leftInverse (invCipherBlock_cipherBlock w) b

/-- Settles O53, by the two compositions on blocks. -/
theorem aesDecryptInvertsEncrypt : Obligations.AesDecryptInvertsEncrypt := by
  intro k b hb
  rw [aesD, aesE, Block.load_unload, invCipherBlock_cipherBlock, Block.unload_load b hb,
    aesE, aesD, Block.load_unload, cipherBlock_invCipherBlock, Block.unload_load b hb]
  exact ⟨rfl, rfl⟩

/-! ### CBC and its IV (R301, R302) -/

theorem Block.unload_xor_getD (x y : Block) (j : Nat) :
    (x.xor y).unload.getD j 0 = x.unload.getD j 0 ^^^ y.unload.getD j 0 := by
  by_cases hj : j < 16
  · interval_cases j <;> rfl
  · have hout (z : Block) : z.unload.getD j 0 = 0 :=
      List.getD_eq_default _ _ (by rw [Block.unload_length]; omega)
    rw [hout, hout, hout]
    rfl

/-- Another chaining value changes the first block alone, by the difference of the two. -/
theorem cbcDecBlocks_getD_of_chain (w : List Col) (cv cv' : Block) (l : List Block) (j : Nat) :
    ((cbcDecBlocks w cv' l).flatMap Block.unload).getD j 0 =
      if j < 16 ∧ j < 16 * l.length then
        ((cbcDecBlocks w cv l).flatMap Block.unload).getD j 0 ^^^ cv.unload.getD j 0 ^^^ cv'.unload.getD j 0
      else ((cbcDecBlocks w cv l).flatMap Block.unload).getD j 0 := by
  cases l with
  | nil => exact (if_neg (by simp)).symm
  | cons c l =>
    simp only [cbcDecBlocks, List.flatMap_cons]
    by_cases hj : j < 16
    · rw [if_pos ⟨hj, by simp only [List.length_cons]; omega⟩, List.getD_append _ _ _ _ (by simpa),
        List.getD_append _ _ _ _ (by simpa), Block.unload_xor_getD, Block.unload_xor_getD,
        BitVec.xor_assoc _ (cv.unload.getD j 0) (cv.unload.getD j 0), BitVec.xor_self, BitVec.xor_zero]
    · rw [if_neg (fun h => hj h.1), List.getD_append_right _ _ _ _ (by simp; omega),
        List.getD_append_right _ _ _ _ (by simp; omega)]
      rfl

/-- Settles O54, with the blocks of a sequence of whole blocks as many as its length says. -/
theorem cbcDecryptInvertsEncrypt : Obligations.CbcDecryptInvertsEncrypt := by
  intro k iv p hiv hp
  refine ⟨cbcD_cbcE k iv p hp, cbcE_length k iv p hp, cbcD_length k iv p hp, fun iv' hiv' j => ?_⟩
  have h := cbcDecBlocks_getD_of_chain (keyExpansion k) (Block.load iv) (Block.load iv')
    ((chunks 16 p).map Block.load) j
  have hlen : 16 * ((chunks 16 p).map Block.load).length = p.length := by
    rw [List.length_map, chunks_length]
    omega
  rwa [hlen, Block.unload_load iv hiv, Block.unload_load iv' hiv'] at h

/-! ### Accumulated differences (R305, R306) -/

/-- An accumulator of ors is 0 exactly when it starts with 0 and takes only zeros. -/
theorem foldl_or_eq_zero_iff (f : Nat → Byte) (l : List Nat) (d : Byte) :
    l.foldl (fun d i => d ||| f i) d = 0 ↔ d = 0 ∧ ∀ i ∈ l, f i = 0 := by
  induction l generalizing d with
  | nil => simp
  | cons i l ih =>
    rw [List.foldl_cons, ih, List.forall_mem_cons, ← and_assoc]
    exact and_congr_left' BitVec.or_eq_zero_iff

/-- The comparator is true exactly when the 32 positions agree. -/
theorem ctEq_iff (a b : Bytes) : ctEq a b = true ↔ ∀ i < 32, a.getD i 0 = b.getD i 0 := by
  rw [ctEq, beq_iff_eq, ctAcc, foldl_or_eq_zero_iff]
  simp only [true_and, List.mem_range]
  exact forall₂_congr fun i _ => BitVec.xor_eq_zero_iff

/-- Settles O56: sequences of 32 bytes are equal when their 32 positions agree. -/
theorem comparatorIsEquality : Obligations.ComparatorIsEquality := by
  intro a b ha hb
  rw [ctEq_iff]
  refine ⟨fun h => List.ext_getElem (by omega) fun i hia hib => ?_, fun h _ _ => by rw [h]⟩
  have hi := h i (by omega)
  rwa [List.getD_eq_getElem _ _ hia, List.getD_eq_getElem _ _ hib] at hi

/-- The padding check by positions: the last byte's value is from 1 to 16, and as many bytes at the end have it. -/
theorem padOk_iff (pp : Bytes) :
    padOk pp = true ↔ (1 ≤ (padByte pp).toNat ∧ (padByte pp).toNat ≤ 16) ∧
      ∀ i, pp.length - (padByte pp).toNat ≤ i → i < pp.length → pp.getD i 0 = padByte pp := by
  rw [padOk, Bool.and_eq_true, decide_eq_true_eq, List.all_eq_true, List.forall_mem_iff_forall_getElem]
  refine and_congr_right fun _ => ⟨fun h i hlo hhi => ?_, fun h i hi => ?_⟩
  · have hi := h (i - (pp.length - (padByte pp).toNat)) (by rw [List.length_drop]; omega)
    rw [List.getElem_drop, beq_iff_eq] at hi
    rw [List.getD_eq_getElem _ _ hhi, ← hi]
    congr 1
    omega
  · rw [List.length_drop] at hi
    have hpos := h (pp.length - (padByte pp).toNat + i) (by omega) (by omega)
    rwa [List.getElem_drop, beq_iff_eq, ← List.getD_eq_getElem]

/-- The masked check by positions of the last block. -/
theorem padOkMasked_iff (pp : Bytes) :
    padOkMasked pp = true ↔ (1 ≤ (padByte pp).toNat ∧ (padByte pp).toNat ≤ 16) ∧
      ∀ j < 16, 16 ≤ j + (padByte pp).toNat → pp.getD (pp.length - 16 + j) 0 = padByte pp := by
  simp only [padOkMasked]
  rw [Bool.and_eq_true, decide_eq_true_eq, beq_iff_eq, foldl_or_eq_zero_iff]
  simp only [true_and, List.mem_range, ite_eq_right_iff, List.getD_eq_getElem?_getD, List.getElem?_drop]
  exact and_congr_right fun _ => forall₃_congr fun _ _ _ => BitVec.xor_eq_zero_iff

/-- Settles O57: position `j` of the last block is position `length - 16 + j` of the sequence. -/
theorem maskedPaddingCheckIsThePaddingCheck : Obligations.MaskedPaddingCheckIsThePaddingCheck := by
  intro pp hpos hmod
  rw [Bool.eq_iff_iff, padOkMasked_iff, padOk_iff]
  refine and_congr_right fun hrange => ⟨fun h i hlo hhi => ?_, fun h j hj hmask => ?_⟩
  · have hi := h (i - (pp.length - 16)) (by omega) (by omega)
    rwa [Nat.add_sub_cancel' (by omega)] at hi
  · exact h _ (by omega) (by omega)

/-! ### Digests, tags and compressions (42_sha512_hmac.md R254, R258 to R262) -/

theorem sha512_length (m : Bytes) : (sha512 m).length = 64 := HashWords.bytes_length _

/-- A padded message has one block of 128 bytes for each 128 bytes of message, 0x80 and length, the last one filled
up (R262). -/
theorem shaPad_chunks_length (m : Bytes) : (chunks 128 (shaPad m)).length = (m.length + 17 + 127) / 128 := by
  rw [chunks_length, shaPad_length, shaZeros]
  omega

/-- A key of at most 128 bytes is filled up to 128 (R259). -/
theorem xorByte_hmacKey_length {k : Bytes} (h : k.length ≤ 128) (b : Byte) : (xorByte (hmacKey k) b).length = 128 := by
  simp [xorByte, hmacKey]
  omega

/-- Settles O60: the outer hash of an HMAC is of 128 bytes and a digest. -/
theorem digestAndTagLengths : Obligations.DigestAndTagLengths := by
  refine fun k m => ⟨sha512_length m, sha512_length _, tagOf_length k m, shaPad_chunks_length m, fun hk => ?_⟩
  rw [shaPad_chunks_length, List.length_append, xorByte_hmacKey_length hk, sha512_length]

end Sys2Proof.Machine
end

section
/-! SUPPORT. Command words as bytes and the words that the decoder rejects (30_encoding.md R130 to R133), the fields of
the register words (10_state.md R34 to R40), the three windows (R42 to R44), and what no bus read shows (20_memory.md
R106). -/

namespace Sys2Proof.Machine

/-! ### Rejected words (30_encoding.md R133) and bytes on the bus (20_memory.md R91) -/

theorem decodeOp_error_iff {op : BitVec 4} : (∃ e, decodeOp op = .error e) ↔ op = 0x0 ∨ 0x5 ≤ op := by
  unfold decodeOp
  split_ifs with hload hclear hseal hopen
  · exact iff_of_false (by simp) (by subst hload; decide)
  · exact iff_of_false (by simp) (by subst hclear; decide)
  · exact iff_of_false (by simp) (by subst hseal; decide)
  · exact iff_of_false (by simp) (by subst hopen; decide)
  · exact iff_of_true ⟨_, rfl⟩ (by bv_omega)

/-- Settles O2: a nonzero `RSV` is rejected first, and with `RSV` zero the opcode decides. -/
theorem illegalWordsAreRejected : Obligations.IllegalWordsAreRejected := by
  intro w
  by_cases hrsv : w.extractLsb' 4 28 = 0
  · rw [decode_of_reserved_eq_zero hrsv, decodeOp_error_iff, or_iff_right (not_not.mpr hrsv)]
  · exact iff_of_true ⟨_, decode_of_reserved_ne_zero hrsv⟩ (.inl hrsv)

/-- Settles O3, by running the decoder on the eight words. -/
theorem specWordsDecode : Obligations.SpecWordsDecode := by
  unfold Obligations.SpecWordsDecode
  decide

/-- The bytes of a word, put together again. -/
theorem wordOfBytesLE_extractLsb' (w : Word) :
    wordOfBytesLE (w.extractLsb' 0 8) (w.extractLsb' 8 8) (w.extractLsb' 16 8) (w.extractLsb' 24 8) = w := by
  unfold wordOfBytesLE
  rw [BitVec.extractLsb'_append_extractLsb'_eq_extractLsb' (show 24 = 16 + 8 from rfl),
    BitVec.extractLsb'_append_extractLsb'_eq_extractLsb' (show 16 = 8 + 8 from rfl),
    BitVec.extractLsb'_append_extractLsb'_eq_extractLsb' (show 8 = 0 + 8 from rfl)]
  exact BitVec.extractLsb'_eq_self

theorem decodeBytes_bytesOfWordLE {w : Word} {i : Instr} (h : decode w = .ok i) (rest : Bytes) :
    decodeBytes (bytesOfWordLE w ++ rest) = .ok (i, rest) := by
  simp only [bytesOfWordLE, List.cons_append, List.nil_append, decodeBytes, wordOfBytesLE_extractLsb', h]

/-- Settles O4: the four bytes are the command's word again, which decodes to the command. -/
theorem decodeOfEncode : Obligations.DecodeOfEncode := by
  intro i rest
  obtain ⟨-, hwf, -⟩ := commandWord_statement i
  exact ⟨hwf, decodeBytes_bytesOfWordLE (decode_eq_ok_iff.mpr rfl) rest⟩

/-! ### Fields of the register words (10_state.md R34, R36, R37) -/

/-- The flag appended last is bit 0. -/
theorem getLsbD_append_bit_zero {n : Nat} (x : BitVec n) (b : Bool) : (x ++ bit b).getLsbD 0 = b := by
  rw [BitVec.getLsbD_append]
  cases b <;> rfl

/-- The bits above the flag appended last are those of the word before it. -/
theorem getLsbD_append_bit_succ {n : Nat} (x : BitVec n) (b : Bool) (i : Nat) :
    (x ++ bit b).getLsbD (i + 1) = x.getLsbD i := by
  simp [BitVec.getLsbD_append]

theorem ctrlWord_flags (s : State) :
    (ctrlWord s).getLsbD 0 = s.ctrlStrict ∧ (ctrlWord s).getLsbD 1 = s.ctrlIrqEn :=
  ⟨getLsbD_append_bit_zero .., (getLsbD_append_bit_succ ..).trans (getLsbD_append_bit_zero ..)⟩

theorem eventWord_flags (s : State) : (eventWord s).getLsbD 0 = s.evDone ∧
    (eventWord s).getLsbD 1 = s.evCmdDropped ∧ (eventWord s).getLsbD 2 = s.evWrIgnored :=
  ⟨getLsbD_append_bit_zero .., (getLsbD_append_bit_succ ..).trans (getLsbD_append_bit_zero ..),
    (getLsbD_append_bit_succ ..).trans ((getLsbD_append_bit_succ ..).trans (getLsbD_append_bit_zero ..))⟩

theorem statusWord_getLsbD_keyValid (s : State) : (statusWord s).getLsbD 1 = s.keys.valid :=
  (getLsbD_append_bit_succ ..).trans (getLsbD_append_bit_zero ..)

/-- RNG_COND, RNG_COUNT and LAST_OP in STATUS: each is found by dropping the fields below it. -/
theorem statusWord_rngFields_lastOp (s : State) : (statusWord s).extractLsb' 8 2 = s.statusRngCond ∧
    (statusWord s).extractLsb' 10 5 = BitVec.ofNat 5 s.statusRngCount.val ∧
    (statusWord s).extractLsb' 16 4 = s.statusLastOp := by
  unfold statusWord
  refine ⟨?_, ?_, ?_⟩
  all_goals
    repeat rw [BitVec.extractLsb'_append_eq_of_le (by decide)]
    exact BitVec.extractLsb'_append_eq_right

/-- Settles O17: STATUS field by field; RNG_COUNT is at most 16, which its five bits hold. -/
theorem statusWordFields : Obligations.StatusWordFields := by
  refine ⟨fun s => ?_, rfl⟩
  obtain ⟨hcond, hcount, hop⟩ := statusWord_rngFields_lastOp s
  refine ⟨busRead_status s, ?_, statusWord_getLsbD_keyValid s, statusWord_extractLsb'_err s, hcond, ?_, hop,
    busWrite_status s⟩
  · rw [statusWord_getLsbD_busy, busy_eq_true]
  · rw [hcount, BitVec.toNat_ofNat]
    omega

/-- Settles O15, by the access to each register and the flags of CTRL. -/
theorem controlAndLengthRegisters : Obligations.ControlAndLengthRegisters := by
  refine ⟨fun s w hp => ?_, fun s w => busWrite_outLen s w, fun s => ?_⟩
  · rw [busWrite_ctrl, busWrite_keyLen, busWrite_inLen, inputWrite_idle _ s hp, inputWrite_idle _ s hp,
      inputWrite_idle _ s hp, writeKeyLen, writeInLen, BitVec.setWidth_eq_extractLsb' (by decide)]
    exact ⟨rfl, rfl, rfl⟩
  · obtain ⟨hstrict, hirq⟩ := ctrlWord_flags s
    rw [busRead_ctrl, busRead_keyLen, busRead_inLen, busRead_outLen]
    exact ⟨hstrict, hirq, ctrlWord_reserved s, busRead_ok s _ rfl, BitVec.toNat_setWidth_of_le (by decide),
      BitVec.toNat_setWidth_of_le (by decide), BitVec.toNat_setWidth_of_le (by decide), rfl, rfl, rfl, rfl⟩

theorem and_not_eq_ite (a b : Bool) : (a && !b) = if b then false else a := by cases b <;> simp

/-- Settles O18: the write is `writeEvent`, and EVENT reads as its three flags. -/
theorem eventWriteOneToClear : Obligations.EventWriteOneToClear := by
  intro s w
  obtain ⟨hdone, hdropped, hignored⟩ := eventWord_flags s
  refine ⟨_, busWrite_event s w, rfl, and_not_eq_ite _ _, and_not_eq_ite _ _, and_not_eq_ite _ _, ?_⟩
  rw [busRead_event]
  exact ⟨rfl, hdone, hdropped, hignored⟩

/-! ### The windows (R42 to R44; 20_memory.md R91, R95, R96) -/

/-- Four bytes written one by one at `4 * k` are the bytes of the word whose index is `k`. -/
theorem wordByte_ite (w : Word) (k j : Nat) (b : Byte) :
    (if j = 4 * k + 3 then w.extractLsb' 24 8
      else if j = 4 * k + 2 then w.extractLsb' 16 8
      else if j = 4 * k + 1 then w.extractLsb' 8 8
      else if j = 4 * k then w.extractLsb' 0 8
      else b) = if j / 4 = k then w.extractLsb' (8 * (j % 4)) 8 else b := by
  by_cases hj : j / 4 = k
  · obtain ⟨r, hr, rfl⟩ : ∃ r, r < 4 ∧ j = 4 * k + r := ⟨j % 4, by omega, by omega⟩
    interval_cases r <;> simp [Nat.mul_add_div]
  · rw [if_neg hj, if_neg (by omega), if_neg (by omega), if_neg (by omega), if_neg (by omega)]

theorem kstage_writeKstageWord (k : Nat) (w : Word) (s : State) (j : Nat) (hj : j < 64) :
    (writeKstageWord (4 * k) w s).kstage[j] =
      if j / 4 = k then w.extractLsb' (8 * (j % 4)) 8 else s.kstage[j] := by
  simp only [writeKstageWord, Vector.getElem_setIfInBounds, eq_comm (b := j)]
  exact wordByte_ite w k j _

theorem ibufByte_writeIbufWord_word (k : Nat) (w : Word) (s : State) (j : Nat) :
    ibufByte (writeIbufWord (4 * k) w s) j =
      if j / 4 = k then w.extractLsb' (8 * (j % 4)) 8 else ibufByte s j := by
  rw [ibufByte_writeIbufWord, wordByte_ite]

/-- Settles O19, by the address map of KSTAGE and the bytes of the word written. -/
theorem kstageWindow : Obligations.KstageWindow := by
  intro s k w hk
  have haddr := toNat_windowOffset (base := 0x40) (k := k) (by decide) (by omega)
  refine ⟨?_, fun hp => ⟨_, ?_, rfl, kstage_writeKstageWord k w s⟩⟩
  · rw [busRead_ok s _ (by omega), targetOf_kstage s.cfg _ (by omega) (by omega)]
  · rw [busWrite_kstage s _ w (by omega) (by omega) (by omega), inputWrite_idle _ s hp, haddr,
      Nat.add_sub_cancel_left]

/-- A word of a window reads back as it was written. -/
theorem windowWord_ibufByte_writeIbufWord (k : Nat) (w : Word) (s : State) :
    windowWord (ibufByte (writeIbufWord (4 * k) w s)) (4 * k) = w := by
  have hbyte (r : Nat) (hr : r < 4) :
      ibufByte (writeIbufWord (4 * k) w s) (4 * k + r) = w.extractLsb' (8 * r) 8 := by
    rw [ibufByte_writeIbufWord_word, if_pos (by omega), Nat.mul_add_mod, Nat.mod_eq_of_lt hr]
  have hfirst := hbyte 0 (by decide)
  rw [Nat.add_zero] at hfirst
  rw [windowWord, hfirst, hbyte 1 (by decide), hbyte 2 (by decide), hbyte 3 (by decide)]
  exact wordOfBytesLE_extractLsb' w

/-- Settles O20, by the address map of IBUF and the bytes of the word written. -/
theorem ibufWindow : Obligations.IbufWindow := by
  intro s k hl hk
  have hmax := bufBytes_le_of_legal hl
  have haddr := toNat_windowOffset (base := 0x8000) (k := k) (by decide) (by omega)
  refine ⟨⟨_, busRead_ibuf hl hk, fun i hi => extractLsb'_windowWord _ _ hi⟩,
    fun w hp => ⟨writeIbufWord (4 * k) w s, ?_, rfl, ibufByte_writeIbufWord_word k w s, ?_⟩⟩
  · rw [busWrite_ibuf s _ w (by omega) (by omega) (by omega) (by omega), inputWrite_idle _ s hp, haddr,
      Nat.add_sub_cancel_left]
  · rw [busRead_ibuf (s := writeIbufWord (4 * k) w s) hl hk, windowWord_ibufByte_writeIbufWord]

/-- Settles O21: a word of OBUF is four bytes `ob(i)`, and OBUF takes no write. -/
theorem obufWindow : Obligations.ObufWindow := by
  intro s k hl hk
  have hmax := bufBytes_le_of_legal hl
  have haddr := toNat_windowOffset (base := 0xC000) (k := k) (by decide) (by omega)
  refine ⟨⟨_, busRead_obuf hl hk, fun i hi => extractLsb'_windowWord (obufByte s) _ hi⟩, fun w => ?_⟩
  rw [busWrite_ok s _ w (by omega), targetOf_obuf s.cfg _ (by omega), if_pos (by omega)]

/-! ### What no bus read shows (R42, R45; 20_memory.md R106) -/

/-- Settles O22: each word that the bus reads has the fields it shows among those on which the states agree. -/
theorem noBusReadShowsAKey : Obligations.NoBusReadShowsAKey := by
  intro s t addr h
  obtain ⟨hstrict, hirq, herr, hcond, hcount, hop, hdone, hdropped, hignored, hkeyLen, hinLen, houtLen, hibuf, hresets,
    hobuf, hvalid, hbusy, hcfg⟩ := h
  have hctrl : ctrlWord s = ctrlWord t := by rw [ctrlWord, ctrlWord, hstrict, hirq]
  have hstatus : statusWord s = statusWord t := by
    rw [statusWord, statusWord, hop, hcount, hcond, herr, hvalid, hbusy]
  have hevent : eventWord s = eventWord t := by rw [eventWord, eventWord, hdone, hdropped, hignored]
  have hin : ibufByte s = ibufByte t := by
    funext j
    rw [ibufByte, ibufByte, hibuf, hresets]
  have hout : obufByte s = obufByte t := by
    funext j
    rw [obufByte, obufByte, houtLen, hobuf]
  simp only [busRead, hctrl, hstatus, hevent, hin, hout, hkeyLen, hinLen, houtLen, hcfg]

end Sys2Proof.Machine
end

section
/-! SUPPORT. Commands in time: the last cycle and the latency before it (70_reset_and_hazards.md R470, R471), the wait
for the RNG port (40_commands.md R154, 60_exceptions.md R430), and the successful SEAL and OPEN and the failing OPEN by
the rules of their commands (40_commands.md R170, R180, R181). -/

namespace Sys2Proof.Machine

/-! ### The last cycle (R470) -/

theorem cycleEffect_last {s : State} {snap : Snapshot} (hp : s.phase = .run snap) (hc : s.cyclesLeft ≤ 1) :
    cycleEffect s = runEffect snap s := by
  rw [cycleEffect, hp]
  exact if_neg (by omega)

/-- The own step of a command in phase `Run` is `exec` of it. -/
theorem exec_eq_runEffect {s : State} {snap : Snapshot} {i : Instr} (hp : s.phase = .run snap)
    (hd : decode snap.cmd = .ok i) : exec i s = .next (runEffect snap s) := by
  rw [exec_run i s snap hp, runEffect_of_ok hd]

theorem execIllegal_eq_runEffect {s : State} {snap : Snapshot} {e : DecodeError} (hp : s.phase = .run snap)
    (hd : decode snap.cmd = .error e) : execIllegal s = .next (runEffect snap s) := by
  rw [execIllegal_run s snap hp, runEffect_of_error hd]

/-- Settles O5: with no action and with a clock action alike, the step is the last cycle. -/
theorem stepRunsTheDecodedCommand : Obligations.StepRunsTheDecodedCommand := by
  intro s snap i hp hc hd
  refine ⟨fun hi => ?_, fun rest hi => ?_⟩
  · rw [step_run_last_cycle hp hc hi, exec_eq_runEffect hp hd]
  · rw [step_clock hi, cycleEffect_last (s := s.withInputs rest) hp hc]
    exact (exec_eq_runEffect (s := s.withInputs rest) hp hd).symm

/-! ### Runs of several steps -/

/-- A run of a machine begins with a step. -/
theorem run_succ_of_step (M : Host.Core) {s t : M.State} (h : M.step s = .next t) (n : Nat) :
    M.run (n + 1) s = M.run n t := by
  rw [Host.Core.run, h]

section
variable {s t : State}

theorem run_succ (h : step s = .next t) (n : Nat) : core.run (n + 1) s = core.run n t := run_succ_of_step core h n

theorem run_one (s : State) : core.run 1 s = step s := by
  obtain ⟨t, h⟩ := everyStepAnswers s
  rw [run_succ h, h]
  rfl

/-- A run goes on from where its first steps lead. -/
theorem run_add {m : Nat} (h : core.run m s = .next t) (n : Nat) : core.run (m + n) s = core.run n t := by
  induction m generalizing s with
  | zero =>
    cases h
    rw [Nat.zero_add]
  | succ m ih =>
    obtain ⟨u, hu⟩ := everyStepAnswers s
    rw [run_succ hu] at h
    rw [Nat.add_right_comm, run_succ hu, ih h]

end

/-! ### The wait for the RNG port (R154, R430) -/

theorem step_rngWait {s : State} {snap : Snapshot} (hp : s.phase = .rngWait snap) (hi : s.inputs = []) :
    step s = .next s := by
  rw [step_no_action hi, cycleEffect, hp]

/-- Settles O31, by induction on the number of steps. -/
theorem unansweredSealWaitsForever : Obligations.UnansweredSealWaitsForever := by
  intro s snap n hp hi
  induction n with
  | zero => rfl
  | succ n ih => rw [run_succ (step_rngWait hp hi), ih]

theorem answerRng_waiting {s : State} {snap : Snapshot} (hp : s.phase = .rngWait snap) (hr : s.rng.pending = true)
    (a : RngAnswer) : answerRng a s = { s with phase := .run snap, rng := ⟨false, some a⟩ } := by
  simp only [answerRng, hp, hr]

theorem answerRng_not_waiting {s : State} (h : ∀ snap, s.phase ≠ .rngWait snap) (a : RngAnswer) :
    answerRng a s = s := by
  rcases answerRng_cases a s with ⟨snap, hp, -, -⟩ | ⟨heq, -⟩
  · exact absurd hp (h snap)
  · exact heq

/-- Settles O30, by what the answer does to a SEAL that waits and to any other block. -/
theorem rngAnswerIsTakenOrDiscarded : Obligations.RngAnswerIsTakenOrDiscarded := by
  intro s a rest hi
  refine ⟨fun snap hp hr => ?_, fun h => ?_⟩
  · rw [step_rngAnswer hi, answerRng_waiting (s := s.withInputs rest) hp hr]
    rfl
  · rw [step_rngAnswer hi, answerRng_not_waiting (s := s.withInputs rest) h]
    rfl

/-! ### The latency of a command (R470, R471) -/

section
variable {s : State} {snap : Snapshot}

/-- Before its last cycle a running command uses up one cycle. -/
theorem step_counts (hp : s.phase = .run snap) (hi : s.inputs = []) (hc : 1 < s.cyclesLeft) :
    step s = .next { s with cyclesLeft := s.cyclesLeft - 1 } := by
  rw [step_no_action hi, cycleEffect, hp]
  exact congrArg _ (if_pos hc)

/-- Steps before the last cycle do nothing but count. -/
theorem run_counts (hp : s.phase = .run snap) (hi : s.inputs = []) {j : Nat} (hj : j < s.cyclesLeft) :
    core.run j s = .next { s with cyclesLeft := s.cyclesLeft - j } := by
  induction j generalizing s with
  | zero => rfl
  | succ j ih =>
    have hrest := ih (s := { s with cyclesLeft := s.cyclesLeft - 1 }) hp hi (by dsimp only; omega)
    rw [run_succ (step_counts hp hi (by omega)), hrest]
    dsimp only
    rw [Nat.sub_sub, Nat.add_comm 1 j]

/-- After its latency the command has its own step. -/
theorem run_latency {k : Nat} (hp : s.phase = .run snap) (hi : s.inputs = []) (hk : s.cyclesLeft = k + 1) :
    core.run (k + 1) s = .next (runEffect snap { s with cyclesLeft := 1 }) := by
  have hcount := run_counts hp hi (j := k) (by omega)
  rw [hk, Nat.add_sub_cancel_left] at hcount
  rw [run_add hcount, run_one]
  exact step_run_last_cycle (s := { s with cyclesLeft := 1 }) hp le_rfl hi

end

/-- Settles O44, by the steps that count and the last one. -/
theorem commandRunsAfterItsLatency : Obligations.CommandRunsAfterItsLatency := by
  intro s snap k hp hi hk
  refine ⟨fun j hj => ⟨_, run_counts hp hi (by omega), hp, rfl⟩, fun i hd => ?_, fun e hd => ?_⟩
  · rw [run_latency hp hi hk]
    exact (exec_eq_runEffect (s := { s with cyclesLeft := 1 }) hp hd).symm
  · rw [run_latency hp hi hk]
    exact (execIllegal_eq_runEffect (s := { s with cyclesLeft := 1 }) hp hd).symm

theorem one_le_commandLatency (cfg : Config) (snap : Snapshot) : 1 ≤ commandLatency cfg snap := by
  have hfixed (op : BitVec 4) (e : Err) : 1 ≤ latencyFixed cfg op e := le_max_left _ _
  have hseal (l : Nat) : 1 ≤ latencySeal cfg l := le_max_left _ _
  have hopen (l : Nat) : 1 ≤ latencyOpen cfg l := le_max_left _ _
  unfold commandLatency
  cases decode snap.cmd with
  | error e => exact hfixed _ _
  | ok i =>
    cases i with
    | keyLoad | keyClear => exact hfixed _ _
    | sealData =>
      dsimp only
      split_ifs
      exacts [hfixed _ _, hfixed _ _, hseal _]
    | openRecord =>
      dsimp only
      split_ifs
      exacts [hfixed _ _, hfixed _ _, hfixed _ _, hopen _]

section
variable {cfg : Config} {p q : Snapshot}

/-- The latency reads the word, KEY_VALID, IN_LEN and whether KEY_LEN is 64. -/
theorem commandLatency_congr (hword : p.word = q.word) (hvalid : p.keys.valid = q.keys.valid)
    (hlen : p.inLen = q.inLen) (hkey : p.keyLen = 64 ↔ q.keyLen = 64) : commandLatency cfg p = commandLatency cfg q := by
  have hcmd : p.cmd = q.cmd := congrArg cmdWordOf hword
  have hlength : p.length = q.length := congrArg BitVec.toNat hlen
  have hseal : sealLengthOk cfg p = sealLengthOk cfg q := by rw [sealLengthOk, sealLengthOk, hlength]
  have hopen : openLengthOk cfg p = openLengthOk cfg q := by rw [openLengthOk, openLengthOk, hlength]
  have hlong : openLongEnough p = openLongEnough q := by rw [openLongEnough, openLongEnough, hlength]
  have hcheck : (if p.keyLen = 64 then Err.ok else .invalidKeyLength) =
      if q.keyLen = 64 then Err.ok else .invalidKeyLength := if_congr hkey rfl rfl
  rw [commandLatency, commandLatency, hcmd, hword, hvalid, hlength, hseal, hopen, hlong, hcheck]

theorem commandLatency_seal (hd : decode p.cmd = .ok .sealData) (hv : p.keys.valid = true)
    (hlen : p.inLen.toNat + 49 ≤ cfg.bufBytes) : commandLatency cfg p = latencySeal cfg p.inLen.toNat := by
  simp only [commandLatency, hd, hv, sealLengthOk_eq_true_iff.mpr hlen]
  rfl

theorem commandLatency_illegal (hd : ∃ e, decode p.cmd = .error e) :
    commandLatency cfg p = latencyFixed cfg p.word.op .illegalCommand := by
  obtain ⟨e, hd⟩ := hd
  simp only [commandLatency, hd]

end

/-- Settles O45, by the latency of each class of command. -/
theorem latencyDependsOnNothingSecret : Obligations.LatencyDependsOnNothingSecret := by
  refine ⟨fun s w => ⟨_, accept_phase w s, accept_cyclesLeft w s, one_le_commandLatency _ _⟩,
    fun cfg p q => commandLatency_congr, fun cfg p q hdp hdq hvp hvq hlen hlow hhigh => ?_,
    fun cfg p q hdp hdq hvp hvq hlen hhigh => ?_, fun cfg p q hdp hdq hop => ?_⟩
  · rw [commandLatency_open hdp hvp hlow hhigh,
      commandLatency_open hdq hvq (by rwa [← hlen]) (by rwa [← hlen]), hlen]
  · rw [commandLatency_seal hdp hvp hhigh, commandLatency_seal hdq hvq (by rwa [← hlen]), hlen]
  · rw [commandLatency_illegal hdp, commandLatency_illegal hdq, hop]

/-! ### SEAL and OPEN by their rules (40_commands.md R170, R180, R181) -/

/-- Settles O28: the last case of SEAL's rule. -/
theorem sealCompletesWithTheRecord : Obligations.SealCompletesWithTheRecord := by
  intro s snap a hp hv hlen ha hcount
  obtain ⟨t, hexec, hframe, hkeys, hstage, hkeyLen, hrule⟩ := sealFollowsItsRule s snap hp
  have hfull : ¬ a.count.val < 16 := by rw [a.count_lt_iff, not_not, hcount]
  rw [if_neg (by simp [hv]), if_neg (by omega), ha] at hrule
  exact ⟨t, hexec, (if_neg hfull).mp hrule, hframe, hkeys, hstage, hkeyLen⟩

/-- Settles O32: the last case of OPEN's rule. -/
theorem openCompletesWithThePlaintext : Obligations.OpenCompletesWithThePlaintext := by
  intro s snap hp hv hhigh hlow
  dsimp only
  intro htag hpos hmod hpad
  obtain ⟨t, hexec, hframe, hkeys, hstage, hkeyLen, hrule⟩ := openFollowsItsRule s snap hp
  refine ⟨t, hexec, ?_, hframe, hkeys, hstage, hkeyLen⟩
  dsimp only at hrule
  rwa [if_neg (by simp [hv]), if_neg (by omega), if_neg (by omega), if_neg (ne_false_of_eq_true htag),
    if_neg (by omega), if_neg (ne_false_of_eq_true hpad)] at hrule

section
variable {cfg : Config} {snap : Snapshot}

/-- A record whose tag does not match gives no output, and neither OK nor InvalidPadding (R181). -/
theorem openResult_of_tag_mismatch (h : ctEq (recordTag snap.input) (expectedTag snap) = false) :
    (openResult cfg snap).1 ≠ .ok ∧ (openResult cfg snap).1 ≠ .invalidPadding ∧ (openResult cfg snap).2 = [] := by
  simp only [openResult, if_pos h]
  split_ifs <;> simp

/-- With STRICT = 1 no OPEN gives InvalidPadding (R180). -/
theorem openResult_of_strict (h : snap.strict = true) : (openResult cfg snap).1 ≠ .invalidPadding := by
  simp only [openResult, paddingError, if_pos h]
  split_ifs <;> simp

end

/-- Settles O35, by the results of an OPEN whose tag does not match and of one with STRICT = 1. -/
theorem noPaddingErrorBeforeAuthentication : Obligations.NoPaddingErrorBeforeAuthentication := by
  intro s t snap hp hexec
  rw [exec_open hp] at hexec
  obtain rfl := Host.Outcome.next.inj hexec
  rw [complete_statusErr, complete_obuf]
  have hmismatch := openResult_of_tag_mismatch (cfg := s.cfg) (snap := snap)
  refine ⟨fun herr => ⟨?_, ?_⟩, fun hok => ?_, fun htag => (hmismatch htag).2.2⟩
  · exact Bool.eq_false_iff.mpr fun hstrict => openResult_of_strict hstrict herr
  · exact Bool.ne_false_iff.mp fun htag => (hmismatch htag).2.1 herr
  · exact Bool.ne_false_iff.mp fun htag => (hmismatch htag).1 hok

end Sys2Proof.Machine
end
